-- ==== Sys2Proof/Word.lean ====
section
/-! DEFINITION. The word types of the payload decoder block (PDB): spec/00_scope.md R6 and spec/20_memory.md R50. -/

namespace Sys2Proof

/-- One byte: BUS_W = CHAR_W = LEN_W = 8 bits (R6). -/
abbrev Byte := BitVec 8

/-- A byte offset in the host register map: 6 bits, 0x00 to 0x3F (R50). -/
abbrev Offset := BitVec 6

/-- The payload string once every cell of IN_CHAR has been read: PAYLOAD_CHARS = 16 character codes (R6, R23). -/
abbrev Chars := Vector Byte 16

/-- The converted payload: PAYLOAD_BYTES = 8 bytes (R6, R33). -/
abbrev Payload := Vector Byte 8

end Sys2Proof
end

