-- ==== Sys2Proof/Syntax.lean ====
section
/-! DEFINITION. The commands of the PDB: one constructor per row of spec/opcode_table.json (spec/30_encoding.md R70 to R72).
A command has no register field and no immediate field (R70), so the seven legal commands carry nothing. An illegal
command carries the bits its row leaves open, so that CMD can hold the byte that was written (R26). -/

namespace Sys2Proof

/-- A command of the PDB. -/
inductive Instr where
  /-- CONV, CMD = 0x00 (R108). -/
  | conv
  /-- DEVTYPE, CMD = 0x01 (R120). -/
  | devtype
  /-- TIME, CMD = 0x02 (R124). -/
  | time
  /-- STATE, CMD = 0x03 (R128). -/
  | state
  /-- SOC, CMD = 0x04 (R140). -/
  | soc
  /-- TEMP, CMD = 0x05 (R145). -/
  | temp
  /-- RECORD, CMD = 0x06 (R160). -/
  | record
  /-- ILLEGAL (OP = 7), any RSVD: `xxxxx111` (R72, R102). -/
  | illegalOp7 (rsvd : BitVec 5)
  /-- ILLEGAL (RSVD ≠ 0), with the OP it was written with (R72, R102). -/
  | illegalRsvd (rsvd : BitVec 5) (op : BitVec 3)
  deriving DecidableEq, Repr

end Sys2Proof
end

