-- ==== Sys2Proof/WellFormed.lean ====
section
/-! DEFINITION. Which terms of Instr stand for a command byte. The row ILLEGAL (RSVD ≠ 0) requires a nonzero RSVD, and a byte
with OP = 7 belongs to the row before it (spec/opcode_table.json; spec/30_encoding.md R72; notes/assumptions/5.md). -/

namespace Sys2Proof

/-- The term is the reading of exactly one command byte. -/
def WellFormed : Instr → Bool
  | .conv => true
  | .devtype => true
  | .time => true
  | .state => true
  | .soc => true
  | .temp => true
  | .record => true
  | .illegalOp7 _ => true
  | .illegalRsvd rsvd op => decide (rsvd ≠ 0) && decide (op ≠ 7)

end Sys2Proof
end

