-- ==== Sys2Proof/Decode.lean ====
section
/-! DEFINITION. The command byte, both ways: spec/30_encoding.md R70 to R73 and spec/opcode_table.json. -/

namespace Sys2Proof

/-- CMD[2:0], the operation select (R70). -/
def opField (v : Byte) : BitVec 3 := v.extractLsb' 0 3

/-- CMD[7:3], which must be 0 in a legal command (R70). -/
def rsvdField (v : Byte) : BitVec 5 := v.extractLsb' 3 5

/-- The command a CMD byte stands for. The seven legal rows are tested first, each with mask 0xFF, as the table's note says;
then the row ILLEGAL (OP = 7); every byte that is left has RSVD ≠ 0 (R71, R72). -/
def decodeByte (v : Byte) : Instr :=
  if v = 0x00 then .conv
  else if v = 0x01 then .devtype
  else if v = 0x02 then .time
  else if v = 0x03 then .state
  else if v = 0x04 then .soc
  else if v = 0x05 then .temp
  else if v = 0x06 then .record
  else if opField v = 7 then .illegalOp7 (rsvdField v)
  else .illegalRsvd (rsvdField v) (opField v)

/-- Why the decoder reads no command. -/
inductive DecodeReject where
  /-- There is no byte to read: a command is exactly one byte long (R70). -/
  | noCommandByte
  deriving DecidableEq, Repr

/-- Reads one command from a list of bytes and gives the bytes that are left. Every byte is a command (R72: no CMD byte value is
reserved, hinted or custom), so only an empty list is rejected. -/
def decode : List Byte → Except DecodeReject (Instr × List Byte)
  | [] => .error .noCommandByte
  | v :: rest => .ok (decodeByte v, rest)

/-- The bytes of a table word, the first byte from its lowest bits. -/
def wordBytes (nbits w : Nat) : List Byte :=
  (List.range ((nbits + 7) / 8)).map fun k => BitVec.ofNat 8 (w >>> (8 * k))

/-- The command the decoder reads from a word of the opcode table. A command is one byte (R70): a word that leaves bytes over is
none. -/
def decodeTableWord (nbits w : Nat) : Option Instr :=
  match decode (wordBytes nbits w) with
  | .ok (i, []) => some i
  | .ok (_, _ :: _) => none
  | .error .noCommandByte => none

/-- The command byte of a command, from the table's match values and, for the two illegal rows, their fields (R70, R71). -/
def encode : Instr → Byte
  | .conv => 0x00
  | .devtype => 0x01
  | .time => 0x02
  | .state => 0x03
  | .soc => 0x04
  | .temp => 0x05
  | .record => 0x06
  | .illegalOp7 rsvd => rsvd ++ (7 : BitVec 3)
  | .illegalRsvd rsvd op => rsvd ++ op

end Sys2Proof
end

