-- ==== Sys2Proof/Config.lean ====
section
/-! DEFINITION. What is fixed for the machine: the parameters of spec/00_scope.md R6, the shape of a row of the field
position table (R84), and the one named parameter, HOST_DEVICE_EMPTY_POLICY (R165, 92_eei_decisions.md D7). The rows of
the two constant tables of R43 stand in Machine/Operands.lean (field positions) and Machine/HostSide.lean (state
names). -/

namespace Sys2Proof.Config

/-- The length that IN_LEN must hold: PAYLOAD_CHARS = 16 (R6, R104). -/
def payloadChars : Byte := 16

/-- The value at which the host saturates IN_LEN (R24, D5). -/
def lenSaturation : Nat := 255

/-- A source bit range of the field position table (R84): `width` bits of payload byte `byte`, starting at bit `lo`. -/
structure FieldPos where
  byte : Fin 8
  lo : Nat
  width : Nat
  deriving DecidableEq, Repr

/-- HOST_DEVICE_EMPTY_POLICY, the host's own parameter: what the host does with an empty device string (R165, C9). -/
inductive HostDeviceEmptyPolicy where
  | accept
  | reject
  deriving DecidableEq, Repr

/-- The default of HOST_DEVICE_EMPTY_POLICY (R165). The functions that depend on the policy take it as an argument, so a
statement may hold for both values. -/
def hostDeviceEmptyPolicy : HostDeviceEmptyPolicy := .accept

end Sys2Proof.Config
end

