-- ==== Sys2Proof/Machine/State.lean ====
section
/-! DEFINITION. The state of the PDB and of the host that drives it: every register of spec/10_state.md R23 to R38, the host's
accesses still to come (R20, R58, R59), and what R210 observes of a run beside the registers (the recorded model
faults). INVENTORY.md, heading State, lists every field with its rule and its reset value. -/

namespace Sys2Proof.Machine

/-- One thing the outside world does to the PDB, between operations: a byte access on the bus (R54, R55, R58) or the reset input
of the block (R200). -/
inductive HostEvent where
  /-- `MemWrite(a, 1, v)` (R55). -/
  | write (a : Offset) (v : Byte)
  /-- `MemRead(a, 1)` (R54). -/
  | read (a : Offset)
  /-- The platform's reset, which arrives only between host accesses (R200, I15). -/
  | reset
  deriving DecidableEq, Repr

/-- The model faults of spec/60_exceptions.md R188 and R189. The spec has a model fault RECORDED (later steps do not clear the
record) and the run go on, never to be a successful one; so a fault is an entry of `State.faults` and no step answers
`Host.Outcome.fault` (notes/assumptions/2.md). All but the last are R188's host-access fault, one constructor for each
case of R56. Recording one is safe: a claim that a run succeeds must show that `faults` is empty. -/
inductive Fault where
  /-- A read of an offset that R51 does not map. Raised by memRead; safe. -/
  | readUnmapped (a : Offset)
  /-- A read of a write-only offset. Raised by memRead; safe. -/
  | readWriteOnly (a : Offset)
  /-- A read of a register, or of a byte of a register, that holds ⊥. Raised by memRead; safe. -/
  | readNoValue (a : Offset)
  /-- A write to an offset that R51 does not map. Raised by memWrite; safe. -/
  | writeUnmapped (a : Offset)
  /-- A write to a read-only offset. Raised by memWrite; safe. -/
  | writeReadOnly (a : Offset)
  /-- A write of IN_PRESENT with a nonzero bit 7:1. Raised by memWrite; safe. -/
  | inPresentUpperBits (v : Byte)
  /-- UNWRITTEN_INPUT (R189): an operation must read an input cell that holds ⊥. Raised by the seven legal operations; safe. -/
  | unwrittenInput
  deriving DecidableEq, Repr

/-- Why a command would have no meaning. -/
inductive Refusal where
  /-- A command that has no meaning in the model yet. No arm of exec answers it: every command has its meaning. Safe. -/
  | notModelled (mnemonic : String)
  deriving DecidableEq, Repr

/-- The state. A register cell that may hold ⊥ is an `Option`: ⊥ is the spec's own content of a cell ("Every register cell holds
either a value of its stated width or ⊥", R9), the reset value R41 gives it, and no value may stand for it. -/
structure State where
  /-- IN_CHAR[0..15], 8 bits each (R23). -/
  inChar : Vector (Option Byte) 16
  /-- IN_LEN, 8 bits (R24). -/
  inLen : Option Byte
  /-- IN_PRESENT, 1 bit (R25). -/
  inPresent : BitVec 1
  /-- CMD, 8 bits (R26). -/
  cmd : Option Byte
  /-- STATUS, 2 bits (R27). -/
  status : BitVec 2
  /-- ERR_CAUSE, 3 bits (R28). -/
  errCause : BitVec 3
  /-- ERR_SUB, 2 bits (R29). -/
  errSub : BitVec 2
  /-- ERR_POS, 4 bits (R30). -/
  errPos : Option (BitVec 4)
  /-- ERR_BYTE, 3 bits (R31). -/
  errByte : Option (BitVec 3)
  /-- ERR_FLAGS, 3 bits (R32). -/
  errFlags : BitVec 3
  /-- BYTES[0..7], 8 bits each (R33). -/
  bytes : Vector (Option Byte) 8
  /-- DEVICE_TYPE, 4 bits (R34). -/
  deviceType : Option (BitVec 4)
  /-- TIME, 36 bits (R35). -/
  time : Option (BitVec 36)
  /-- STATE_CODE, 4 bits (R36). -/
  stateCode : Option (BitVec 4)
  /-- SOC_X2, 8 bits (R37). -/
  socX2 : Option Byte
  /-- TEMP_X2, 9 bits, two's complement (R38). -/
  tempX2 : Option (BitVec 9)
  /-- The host's accesses still to come, in program order, and the platform's resets between them (R58, R59, R200). -/
  pending : List HostEvent
  /-- The model faults recorded so far, oldest first (R188, R189, R210). -/
  faults : List Fault
  /-- The values the host's reads have given back, oldest first, each with its offset (R54, R58). -/
  reads : List (Offset × Byte)
  deriving DecidableEq, Repr

/-- The machine right after reset: every register at its value of R41; no host access is to come, no model fault is recorded and
nothing has been read (R211). -/
def State.reset : State where
  inChar := Vector.replicate 16 none
  inLen := none
  inPresent := 0
  cmd := none
  status := 0
  errCause := 0
  errSub := 0
  errPos := none
  errByte := none
  errFlags := 0
  bytes := Vector.replicate 8 none
  deviceType := none
  time := none
  stateCode := none
  socX2 := none
  tempX2 := none
  pending := []
  faults := []
  reads := []

end Sys2Proof.Machine
end

