-- ==== Sys2Proof/Machine/Operands.lean ====
section
/-! DEFINITION. The operands of the operations: the hex digits (spec/30_encoding.md R80, R81), the string-to-bytes conversion
(spec/40_hex_conversion.md R107), and the fields of the payload by the field position table (R84). -/

namespace Sys2Proof.Machine

/-- `ishex(c)`: the code is one of '0'..'9', 'A'..'F', 'a'..'f' (R80). -/
def ishex (c : Byte) : Bool :=
  decide (0x30 ≤ c ∧ c ≤ 0x39) || decide (0x41 ≤ c ∧ c ≤ 0x46) || decide (0x61 ≤ c ∧ c ≤ 0x66)

/-- `hexval(c)`, the 4-bit value of a hex digit (R81). It is applied only to codes with `ishex`: `convertBytes` is reached only
after the character check, so what it gives for any other code is never used. -/
def hexval (c : Byte) : BitVec 4 :=
  if 0x30 ≤ c ∧ c ≤ 0x39 then (c - 0x30).setWidth 4
  else if 0x41 ≤ c ∧ c ≤ 0x46 then (c - 0x41 + 10).setWidth 4
  else (c - 0x61 + 10).setWidth 4

/-- All sixteen cells of IN_CHAR, if none of them holds ⊥ (R106: the character check reads IN_CHAR[0..15]). -/
def readChars (cells : Vector (Option Byte) 16) : Option Chars :=
  if h : ∀ i : Fin 16, cells[i].isSome then some (Vector.ofFn fun i => cells[i].get (h i)) else none

/-- The lowest position whose character is not a hex digit: min P of R105. -/
def firstNonHex (cs : Chars) : Option (Fin 16) :=
  (List.finRange 16).find? fun i => !ishex cs[i]

/-- Payload byte k from characters 2k and 2k+1, the first of the pair in the high nibble (R107). -/
def payloadByte (cs : Chars) (k : Fin 8) : Byte :=
  hexval cs[2 * k.val] ++ hexval cs[2 * k.val + 1]

/-- `convert()`: the eight payload bytes (R107). -/
def convertBytes (cs : Chars) : Payload := Vector.ofFn (payloadByte cs)

/-! The field position table (R84): the source bit range of each field. -/

/-- BYTES[0][3:0]. -/
abbrev devtypePos : Config.FieldPos := ⟨0, 0, 4⟩
/-- BYTES[0][7:4], to time[3:0]. -/
abbrev t1Pos : Config.FieldPos := ⟨0, 4, 4⟩
/-- BYTES[1][7:0], to time[11:4]. -/
abbrev t2Pos : Config.FieldPos := ⟨1, 0, 8⟩
/-- BYTES[2][7:0], to time[19:12]. -/
abbrev t3Pos : Config.FieldPos := ⟨2, 0, 8⟩
/-- BYTES[3][7:0], to time[27:20]. -/
abbrev t4Pos : Config.FieldPos := ⟨3, 0, 8⟩
/-- BYTES[4][3:0], to time[31:28]. -/
abbrev t5Pos : Config.FieldPos := ⟨4, 0, 4⟩
/-- BYTES[4][7:4]. -/
abbrev statePos : Config.FieldPos := ⟨4, 4, 4⟩
/-- BYTES[5][7:0]. -/
abbrev socPos : Config.FieldPos := ⟨5, 0, 8⟩
/-- BYTES[6][7:0]. -/
abbrev tempPos : Config.FieldPos := ⟨6, 0, 8⟩

/-- The bits of a payload that a row of the table names, read as an unsigned number (R7, R84). -/
def field (b : Payload) (p : Config.FieldPos) : BitVec p.width := b[p.byte].extractLsb' p.lo p.width

/-- The device type (R120). -/
def deviceTypeOf (b : Payload) : BitVec 4 := field b devtypePos

/-- The timestamp T5‖T4‖T3‖T2‖T1, 32 bits (R124). -/
def timeOf (b : Payload) : BitVec 32 :=
  field b t5Pos ++ field b t4Pos ++ field b t3Pos ++ field b t2Pos ++ field b t1Pos

/-- The state code (R128). -/
def stateCodeOf (b : Payload) : BitVec 4 := field b statePos

/-- The raw state-of-charge byte, which SOC_X2 holds (R140). -/
def socOf (b : Payload) : Byte := field b socPos

/-- The raw temperature byte (R145). -/
def rawTempOf (b : Payload) : Byte := field b tempPos

/-- `sext_9(rt - 40)` of a raw temperature byte (R8, R145). -/
def tempX2Of (rt : Byte) : BitVec 9 := BitVec.ofInt 9 ((rt.toNat : Int) - 40)

end Sys2Proof.Machine
end

