-- ==== Sys2Proof/Machine/Flags.lean ====
section
/-! DEFINITION. The bits of ERR_FLAGS (spec/10_state.md R32): each post-decode check gives its own bit or nothing. The PDB has no
arithmetic flags (R39). -/

namespace Sys2Proof.Machine

/-- Bit 0, STATE_INVALID: the state code is above 8 (R32, R128). -/
def stateInvalidFlag (code : BitVec 4) : BitVec 3 := if 8 < code then 0b001 else 0b000

/-- Bit 1, SOC_RANGE: the raw state-of-charge is above 200, that is, above 100 percent (R32, R140). -/
def socRangeFlag (soc : Byte) : BitVec 3 := if 200 < soc then 0b010 else 0b000

/-- Bit 2, TEMP_RANGE: the raw temperature is above 240, that is, above 100 (R32, R145). -/
def tempRangeFlag (rt : Byte) : BitVec 3 := if 240 < rt then 0b100 else 0b000

/-- The three checks of RECORD together (R160, R162). -/
def recordFlags (b : Payload) : BitVec 3 :=
  stateInvalidFlag (stateCodeOf b) ||| socRangeFlag (socOf b) ||| tempRangeFlag (rawTempOf b)

end Sys2Proof.Machine
end

