-- ==== Sys2Proof/Machine/Ops.lean ====
section
/-! DEFINITION. The operations that the commands share: the register writes, the prologue (R101), the structural check (R103 to
R106), error entry and completion (R184, R185), the recording of a model fault (R188, R189), and the operation step
itself (R100). -/

namespace Sys2Proof.Machine

/-! The codes of the status and error registers. -/

/-- The values of STATUS (R27). Value 3 is reserved and never produced. -/
inductive Status where
  | idle
  | ok
  | error
  deriving DecidableEq, Repr

/-- The code of a STATUS value (R27). -/
def Status.code : Status → BitVec 2
  | .idle => 0
  | .ok => 1
  | .error => 2

/-- The cause codes of R180. Codes 6 and 7 are reserved and never produced. -/
inductive ErrCause where
  | none
  | structural
  | decode
  | range
  /-- Kept for the host's own failures; the PDB never raises it (R186). -/
  | internal
  | illegalOp
  deriving DecidableEq, Repr

/-- The code of a cause in ERR_CAUSE (R28, R180). -/
def ErrCause.code : ErrCause → BitVec 3
  | .none => 0
  | .structural => 1
  | .decode => 2
  | .range => 3
  | .internal => 4
  | .illegalOp => 5

/-- The sub-causes of a STRUCTURAL error (R29, R181). -/
inductive ErrSub where
  | none
  | missing
  | length
  | nonhex
  deriving DecidableEq, Repr

/-- The code of a sub-cause in ERR_SUB (R29, R181). -/
def ErrSub.code : ErrSub → BitVec 2
  | .none => 0
  | .missing => 1
  | .length => 2
  | .nonhex => 3

/-! Register writes. Each register is written here and nowhere else. -/

/-- `IN_CHAR[i] <- v` (R55). -/
def State.setInChar (s : State) (i : Fin 16) (v : Byte) : State := { s with inChar := s.inChar.set i (some v) }

/-- `IN_LEN <- v` (R55). -/
def State.setInLen (s : State) (v : Byte) : State := { s with inLen := some v }

/-- `IN_PRESENT <- v[0]` (R55). -/
def State.setInPresent (s : State) (v : BitVec 1) : State := { s with inPresent := v }

/-- `CMD <- v` (R100). -/
def State.setCmd (s : State) (v : Byte) : State := { s with cmd := some v }

/-- `BYTES[k] <- b[k]` for k in 0..7 (R107). -/
def State.setBytes (s : State) (b : Payload) : State := { s with bytes := Vector.ofFn fun k => some b[k] }

/-- `extract_devtype()`: DEVICE_TYPE <- BYTES[0][3:0] (R120, R160). -/
def State.extractDevtype (s : State) (b : Payload) : State := { s with deviceType := some (deviceTypeOf b) }

/-- `extract_time()`: TIME <- zext_36(t), so TIME[35:32] are written 0 (R35, R124, R160). -/
def State.extractTime (s : State) (b : Payload) : State := { s with time := some ((timeOf b).setWidth 36) }

/-- `extract_state()`: STATE_CODE <- BYTES[4][7:4] (R128, R160). -/
def State.extractState (s : State) (b : Payload) : State := { s with stateCode := some (stateCodeOf b) }

/-- `extract_soc()`: SOC_X2 <- BYTES[5] (R140, R160). -/
def State.extractSoc (s : State) (b : Payload) : State := { s with socX2 := some (socOf b) }

/-- `extract_temp()`: TEMP_X2 <- sext_9(BYTES[6] - 40) (R145, R160). -/
def State.extractTemp (s : State) (b : Payload) : State := { s with tempX2 := some (tempX2Of (rawTempOf b)) }

/-- The prologue clears every result register and the error report of the operation before; it does not write STATUS (R101). -/
def State.prologue (s : State) : State :=
  { s with
    bytes := Vector.replicate 8 none, deviceType := none, time := none, stateCode := none, socX2 := none, tempX2 := none
    errPos := none, errByte := none, errCause := 0, errSub := 0, errFlags := 0 }

/-- The payload byte that contains a character position: ERR_POS >> 1 (R31, R105). -/
def errByteOf (p : BitVec 4) : BitVec 3 := (p >>> 1).setWidth 3

/-- Error entry, `raise C(sub, pos, flags)`. ERR_POS and ERR_BYTE are written only when a position is given (R184). This is the
PDB's whole exception mechanism: no control transfer, no saved program counter, no mode (R184, R187, R193). -/
def State.raise (s : State) (c : ErrCause) (sub : ErrSub) (pos : Option (BitVec 4)) (flags : BitVec 3) : State :=
  { s with
    status := Status.error.code, errCause := c.code, errSub := sub.code
    errPos := pos.or s.errPos, errByte := (pos.map errByteOf).or s.errByte, errFlags := flags }

/-- Successful completion: STATUS <- OK and nothing else (R185). There is no return from an error: the report stays until the
next prologue or reset (R187). -/
def State.finishOk (s : State) : State := { s with status := Status.ok.code }

/-- The end of a body with post-decode checks: `finish_ok` if no bit is set, `raise DECODE(flags)` if STATE_INVALID is set,
`raise RANGE(flags)` otherwise (R128, R140, R145, R160, R163). -/
def State.conclude (s : State) (f : BitVec 3) : State :=
  if f = 0b000 then s.finishOk
  else if f.getLsbD 0 then s.raise .decode .none none f
  else s.raise .range .none none f

/-- A model fault is recorded; the access or operation has no other effect (R188, R189). -/
def State.recordFault (s : State) (f : Fault) : State := { s with faults := s.faults ++ [f] }

/-- A value goes back to the host; no register changes (R54). -/
def State.recordRead (s : State) (a : Offset) (v : Byte) : State := { s with reads := s.reads ++ [(a, v)] }

/-- The host's accesses still to come become `p`. -/
def State.withPending (s : State) (p : List HostEvent) : State := { s with pending := p }

/-- Reset sets every register to its value of R41, whatever it held (R200). It starts no operation, clears no recorded model
fault (R188, R189) and takes back nothing the host has read. -/
def State.applyReset (s : State) : State :=
  { State.reset with pending := s.pending, faults := s.faults, reads := s.reads }

/-! The operation step. -/

/-- What the structural check finds. -/
inductive StructuralOutcome where
  /-- A cell the check must read holds ⊥ (R106, R189). -/
  | unwritten
  /-- The first failing check of R103, R104, R105. -/
  | failed (sub : ErrSub) (pos : Option (BitVec 4))
  /-- A well-formed payload string (R82). -/
  | passed (chars : Chars)
  deriving DecidableEq, Repr

/-- The structural check: presence, length, characters, in that order (R103 to R106). IN_LEN is read only when IN_PRESENT = 1, and
IN_CHAR only when IN_LEN = 16; then all of its cells are read, so a ⊥ among them is UNWRITTEN_INPUT whatever the others
hold (notes/assumptions/4.md). -/
def structuralCheck (s : State) : StructuralOutcome :=
  if s.inPresent = 0 then .failed .missing none
  else
    match s.inLen with
    | none => .unwritten
    | some n =>
      if n ≠ Config.payloadChars then .failed .length none
      else
        match readChars s.inChar with
        | none => .unwritten
        | some c =>
          match firstNonHex c with
          | some p => .failed .nonhex (some (BitVec.ofFin p))
          | none => .passed c

/-- One legal operation, `step(v)` of R100 with the body of the command: CMD and the prologue, the structural check, the
conversion, the body on the converted bytes. On UNWRITTEN_INPUT the operation writes no register, CMD included
(R189, I2, V100; notes/assumptions/3.md). -/
def operate (v : Byte) (body : Payload → State → State) (s : State) : State :=
  match structuralCheck s with
  | .unwritten => s.recordFault .unwrittenInput
  | .failed sub pos => (s.setCmd v).prologue.raise .structural sub pos 0b000
  | .passed c => body (convertBytes c) ((s.setCmd v).prologue.setBytes (convertBytes c))

/-- One illegal operation: `raise ILLEGAL_OP()` right after the prologue; no input register is read (R102). -/
def illegalOperation (v : Byte) (s : State) : State :=
  (s.setCmd v).prologue.raise .illegalOp .none none 0b000

end Sys2Proof.Machine
end

