-- ==== Sys2Proof/Machine/Conversion.lean ====
section
/-! DEFINITION. CONV (spec/40_hex_conversion.md). -/

namespace Sys2Proof.Machine

/-- The body of CONV: `finish_ok` (R108). -/
def convBody (_ : Payload) (s : State) : State := s.finishOk

/-- CONV: structural validation and conversion only (R108). -/
def execConv (s : State) : Host.Outcome State Fault Refusal := .next (operate (encode .conv) convBody s)

end Sys2Proof.Machine
end

