-- ==== Sys2Proof/Machine/FieldExtraction.lean ====
section
/-! DEFINITION. DEVTYPE, TIME and STATE (spec/41_field_extraction.md). -/

namespace Sys2Proof.Machine

/-- The body of DEVTYPE (R120). -/
def devtypeBody (b : Payload) (s : State) : State := (s.extractDevtype b).finishOk

/-- DEVTYPE: the device type, which no check rejects (R120, R121). -/
def execDevtype (s : State) : Host.Outcome State Fault Refusal := .next (operate (encode .devtype) devtypeBody s)

/-- The body of TIME (R124). -/
def timeBody (b : Payload) (s : State) : State := (s.extractTime b).finishOk

/-- TIME: the 32-bit timestamp, which no check rejects (R124, R125). -/
def execTime (s : State) : Host.Outcome State Fault Refusal := .next (operate (encode .time) timeBody s)

/-- The body of STATE: STATE_CODE keeps the raw nibble even when it is invalid (R128, R130). -/
def stateBody (b : Payload) (s : State) : State :=
  (s.extractState b).conclude (stateInvalidFlag (stateCodeOf b))

/-- STATE: the state code, DECODE when it is above 8 (R128). -/
def execState (s : State) : Host.Outcome State Fault Refusal := .next (operate (encode .state) stateBody s)

end Sys2Proof.Machine
end

