-- ==== Sys2Proof/Machine/Illegal.lean ====
section
/-! DEFINITION. The two illegal rows of the opcode table: a write of such a byte starts an operation that raises ILLEGAL_OP
(spec/30_encoding.md R72, spec/40_hex_conversion.md R102). -/

namespace Sys2Proof.Machine

/-- ILLEGAL (OP = 7) (R102). -/
def execIllegalOp7 (rsvd : BitVec 5) (s : State) : Host.Outcome State Fault Refusal :=
  .next (illegalOperation (encode (.illegalOp7 rsvd)) s)

/-- ILLEGAL (RSVD ≠ 0) (R102). -/
def execIllegalRsvd (rsvd : BitVec 5) (op : BitVec 3) (s : State) : Host.Outcome State Fault Refusal :=
  .next (illegalOperation (encode (.illegalRsvd rsvd op)) s)

end Sys2Proof.Machine
end

