-- ==== Sys2Proof/Machine/Record.lean ====
section
/-! DEFINITION. RECORD (spec/43_record.md). -/

namespace Sys2Proof.Machine

/-- The body of RECORD: all five fields, then all three checks before anything is raised (R160, R162, R163). -/
def recordBody (b : Payload) (s : State) : State :=
  (((((s.extractDevtype b).extractTime b).extractState b).extractSoc b).extractTemp b).conclude (recordFlags b)

/-- RECORD: the full decode (R160). -/
def execRecord (s : State) : Host.Outcome State Fault Refusal := .next (operate (encode .record) recordBody s)

end Sys2Proof.Machine
end

