-- ==== Sys2Proof/Machine/ScaleMappers.lean ====
section
/-! DEFINITION. SOC and TEMP (spec/42_scale_mappers.md). No value is clamped (R149). -/

namespace Sys2Proof.Machine

/-- The body of SOC: SOC_X2 keeps the raw value even when it is out of range (R140). -/
def socBody (b : Payload) (s : State) : State := (s.extractSoc b).conclude (socRangeFlag (socOf b))

/-- SOC: the state-of-charge, RANGE when the raw byte is above 200 (R140). -/
def execSoc (s : State) : Host.Outcome State Fault Refusal := .next (operate (encode .soc) socBody s)

/-- The body of TEMP: TEMP_X2 keeps the mapped value even when it is out of range (R145). -/
def tempBody (b : Payload) (s : State) : State := (s.extractTemp b).conclude (tempRangeFlag (rawTempOf b))

/-- TEMP: the temperature, RANGE when the raw byte is above 240 (R145). -/
def execTemp (s : State) : Host.Outcome State Fault Refusal := .next (operate (encode .temp) tempBody s)

end Sys2Proof.Machine
end

