-- ==== Sys2Proof/Machine/Dispatch.lean ====
section
/-! DEFINITION. The meaning of every command: one arm per row of spec/opcode_table.json (spec/40_hex_conversion.md R100). -/

namespace Sys2Proof.Machine

def exec (i : Instr) (s : State) : Host.Outcome State Fault Refusal :=
  match i with
  | .conv => Sys2Proof.Machine.execConv s
  | .devtype => Sys2Proof.Machine.execDevtype s
  | .time => Sys2Proof.Machine.execTime s
  | .state => Sys2Proof.Machine.execState s
  | .soc => Sys2Proof.Machine.execSoc s
  | .temp => Sys2Proof.Machine.execTemp s
  | .record => Sys2Proof.Machine.execRecord s
  | .illegalOp7 rsvd => Sys2Proof.Machine.execIllegalOp7 rsvd s
  | .illegalRsvd rsvd op => Sys2Proof.Machine.execIllegalRsvd rsvd op s

end Sys2Proof.Machine
end

