-- ==== Sys2Proof/Machine/Bus.lean ====
section
/-! DEFINITION. The host register map and the two bus accesses (spec/20_memory.md R50 to R57). The map is the PDB's one address
space; it has no instruction, data or I/O memory (R50), so each offset is a register's byte and memory is no list of
cells here (notes/assumptions/8.md). -/

namespace Sys2Proof.Machine

/-- A write-only byte of the map (R42, R51). -/
inductive InReg where
  | inChar (i : Fin 16)
  | inLen
  | inPresent
  | cmd
  deriving DecidableEq, Repr

/-- A read-only byte of the map (R42, R51). -/
inductive OutReg where
  | status
  | errCause
  | errSub
  | errPos
  | errByte
  | errFlags
  | byteAt (k : Fin 8)
  | deviceType
  | stateCode
  | socX2
  | tempLow
  | tempHigh
  | timeByte (j : Fin 5)
  deriving DecidableEq, Repr

/-- A mapped byte. -/
inductive MapEntry where
  | input (r : InReg)
  | output (r : OutReg)
  deriving DecidableEq, Repr

/-- The register map of R51. Unlisted offsets are unmapped. -/
def regMap (a : Offset) : Option MapEntry :=
  if h : a.toNat < 16 then some (.input (.inChar ⟨a.toNat, h⟩))
  else if a = 0x10 then some (.input .inLen)
  else if a = 0x11 then some (.input .inPresent)
  else if a = 0x12 then some (.input .cmd)
  else if a = 0x20 then some (.output .status)
  else if a = 0x21 then some (.output .errCause)
  else if a = 0x22 then some (.output .errSub)
  else if a = 0x23 then some (.output .errPos)
  else if a = 0x24 then some (.output .errByte)
  else if a = 0x25 then some (.output .errFlags)
  else if h : 0x28 ≤ a.toNat ∧ a.toNat < 0x30 then some (.output (.byteAt ⟨a.toNat - 0x28, by omega⟩))
  else if a = 0x30 then some (.output .deviceType)
  else if a = 0x31 then some (.output .stateCode)
  else if a = 0x32 then some (.output .socX2)
  else if a = 0x34 then some (.output .tempLow)
  else if a = 0x35 then some (.output .tempHigh)
  else if h : 0x38 ≤ a.toNat ∧ a.toNat < 0x3D then some (.output (.timeByte ⟨a.toNat - 0x38, by omega⟩))
  else none

/-- The offset of an output byte (R51). -/
def OutReg.offset : OutReg → Offset
  | .status => 0x20
  | .errCause => 0x21
  | .errSub => 0x22
  | .errPos => 0x23
  | .errByte => 0x24
  | .errFlags => 0x25
  | .byteAt k => BitVec.ofNat 6 (0x28 + k.val)
  | .deviceType => 0x30
  | .stateCode => 0x31
  | .socX2 => 0x32
  | .tempLow => 0x34
  | .tempHigh => 0x35
  | .timeByte j => BitVec.ofNat 6 (0x38 + j.val)

/-- The offset of an input byte (R51). -/
def InReg.offset : InReg → Offset
  | .inChar i => BitVec.ofNat 6 i.val
  | .inLen => 0x10
  | .inPresent => 0x11
  | .cmd => 0x12

/-- The offset of a mapped byte (R51). -/
def MapEntry.offset : MapEntry → Offset
  | .input r => r.offset
  | .output r => r.offset

/-- `sext_16(sval_9(TEMP_X2))` (R51). -/
def tempWord (v : BitVec 9) : BitVec 16 := v.signExtend 16

/-- The byte an output offset presents: a narrow register zero-extended, TEMP_X2 sign-extended to 16 bits, TIME zero-extended to 40
bits, both little-endian; none where the register holds ⊥ (R51, R52, R54). -/
def outByte (s : State) : OutReg → Option Byte
  | .status => some (s.status.setWidth 8)
  | .errCause => some (s.errCause.setWidth 8)
  | .errSub => some (s.errSub.setWidth 8)
  | .errPos => s.errPos.map (·.setWidth 8)
  | .errByte => s.errByte.map (·.setWidth 8)
  | .errFlags => some (s.errFlags.setWidth 8)
  | .byteAt k => s.bytes[k]
  | .deviceType => s.deviceType.map (·.setWidth 8)
  | .stateCode => s.stateCode.map (·.setWidth 8)
  | .socX2 => s.socX2
  | .tempLow => s.tempX2.map fun v => (tempWord v).extractLsb' 0 8
  | .tempHigh => s.tempX2.map fun v => (tempWord v).extractLsb' 8 8
  | .timeByte j => s.time.map fun t => (t.setWidth 40).extractLsb' (8 * j.val) 8

/-- `MemRead(a, 1)` (R54): the value goes back to the host, or the access is a host-access fault (R56). No register changes. -/
def memRead (a : Offset) (s : State) : Host.Outcome State Fault Refusal :=
  match regMap a with
  | none => .next (s.recordFault (.readUnmapped a))
  | some (.input _) => .next (s.recordFault (.readWriteOnly a))
  | some (.output r) =>
    match outByte s r with
    | none => .next (s.recordFault (.readNoValue a))
    | some v => .next (s.recordRead a v)

/-- A write of one input register; a write of CMD starts exactly one operation, which completes in the same step (R26, R55,
R100). -/
def writeInput (r : InReg) (v : Byte) (s : State) : Host.Outcome State Fault Refusal :=
  match r with
  | .inChar i => .next (s.setInChar i v)
  | .inLen => .next (s.setInLen v)
  | .inPresent =>
    if v.extractLsb' 1 7 ≠ 0 then .next (s.recordFault (.inPresentUpperBits v))
    else .next (s.setInPresent (v.extractLsb' 0 1))
  | .cmd => exec (decodeByte v) s

/-- `MemWrite(a, 1, v)` (R55), or a host-access fault (R56). -/
def memWrite (a : Offset) (v : Byte) (s : State) : Host.Outcome State Fault Refusal :=
  match regMap a with
  | none => .next (s.recordFault (.writeUnmapped a))
  | some (.output _) => .next (s.recordFault (.writeReadOnly a))
  | some (.input r) => writeInput r v s

/-- What one host event does to the machine (R54, R55, R200). -/
def hostEvent (e : HostEvent) (s : State) : Host.Outcome State Fault Refusal :=
  match e with
  | .write a v => memWrite a v s
  | .read a => memRead a s
  | .reset => .next s.applyReset

end Sys2Proof.Machine
end

