-- ==== Sys2Proof/Machine/Step.lean ====
section
/-! DEFINITION. One step of the machine: the next host event happens, and an operation that it starts completes
(spec/40_hex_conversion.md R100, spec/20_memory.md R59). -/

namespace Sys2Proof.Machine

/-- One step. The host's next access completes before the one after it begins (R59). With no access to come, the PDB holds its
registers and does nothing (R197), so a run that has ended (R210) stays as it is. -/
def step (s : State) : Host.Outcome State Fault Refusal :=
  match s.pending with
  | [] => .next s
  | e :: rest => hostEvent e (s.withPending rest)

/-- The PDB fetches no instruction (R22, R62): an operation runs because the host writes CMD. The state in which the host's next
access is that write (notes/assumptions/1.md). -/
def State.withFetchWord (s : State) (_nbits w : Nat) : State :=
  s.withPending (.write 0x12 (BitVec.ofNat 8 w) :: s.pending)

end Sys2Proof.Machine
end

