-- ==== Sys2Proof/Machine/HostProgram.lean ====
section
/-! DEFINITION. Host programs (spec/30_encoding.md R74), their expansion into bus accesses (spec/20_memory.md R58), the state a run
starts from (spec/70_reset_and_hazards.md R211), and the payload a host builds from field values (R89). -/

namespace Sys2Proof.Machine

/-- The mnemonics of the seven operations that EXEC names (R71, R74). -/
inductive Mnemonic where
  | conv
  | devtype
  | time
  | state
  | soc
  | temp
  | record
  deriving DecidableEq, Repr

/-- The command a mnemonic names (R71). -/
def Mnemonic.instr : Mnemonic → Instr
  | .conv => .conv
  | .devtype => .devtype
  | .time => .time
  | .state => .state
  | .soc => .soc
  | .temp => .temp
  | .record => .record

/-- An output register that READ names (R51, R74). BYTES may be read whole or one cell at a time (notes/assumptions/9.md). -/
inductive ReadName where
  | status
  | errCause
  | errSub
  | errPos
  | errByte
  | errFlags
  | bytes
  | byteAt (k : Fin 8)
  | deviceType
  | stateCode
  | socX2
  | tempX2
  | time
  deriving DecidableEq, Repr

/-- The bytes of the map that READ reads, in the order of R51 (R74). -/
def ReadName.cells : ReadName → List OutReg
  | .status => [.status]
  | .errCause => [.errCause]
  | .errSub => [.errSub]
  | .errPos => [.errPos]
  | .errByte => [.errByte]
  | .errFlags => [.errFlags]
  | .bytes => (List.finRange 8).map .byteAt
  | .byteAt k => [.byteAt k]
  | .deviceType => [.deviceType]
  | .stateCode => [.stateCode]
  | .socX2 => [.socX2]
  | .tempX2 => [.tempLow, .tempHigh]
  | .time => (List.finRange 5).map .timeByte

/-- A statement of a host program (R74). -/
inductive HostStmt where
  /-- `PAYLOAD "s"`. -/
  | payload (s : List Char)
  /-- `NOPAYLOAD`. -/
  | noPayload
  /-- `EXEC m`. -/
  | exec (m : Mnemonic)
  /-- `EXECB b`. -/
  | execb (b : Byte)
  /-- `READ r`. -/
  | read (r : ReadName)
  /-- `DECODE "s"`, which is `PAYLOAD "s"` and then `EXEC RECORD`. -/
  | decode (s : List Char)
  deriving DecidableEq, Repr

/-- `code(c)`, the 8-bit code of a character. R80 and D4 fix the codes of the 22 hex digit characters alone, by ASCII. For every other
character up to U+00FF the model takes its Unicode code point, U+0080 to U+00FF included: the model's choice. A host with wider
characters passes a code above 0xFF as a code that is no hex digit (D4); that this is 0xFF, the spec's own example, is the
model's choice too. DESIGN CHOICE, both (notes/assumptions/7.md). -/
def charCode (c : Char) : Byte := if c.toNat ≤ 0xFF then BitVec.ofNat 8 c.toNat else 0xFF

/-- The accesses of `PAYLOAD "s"` for a string of L characters: IN_PRESENT, then IN_LEN = min(L, 255), then IN_CHAR[i] for i below
min(L, 16) (R58, R74). -/
def loadPayload (s : List Char) : List HostEvent :=
  [.write 0x11 1, .write 0x10 (BitVec.ofNat 8 (min s.length Config.lenSaturation))]
    ++ (s.take 16).zipIdx.map fun p => .write (BitVec.ofNat 6 p.2) (charCode p.1)

/-- The access of `EXECB b` (R74). -/
def startOperation (b : Byte) : List HostEvent := [.write 0x12 b]

/-- The bus accesses of a statement (R74). -/
def HostStmt.expand : HostStmt → List HostEvent
  | .payload s => loadPayload s
  | .noPayload => [.write 0x11 0]
  | .exec m => startOperation (encode m.instr)
  | .execb b => startOperation b
  | .read r => r.cells.map fun c => .read c.offset
  | .decode s => loadPayload s ++ startOperation (encode .record)

/-- The bus accesses of a program, statement after statement (R74, R210). -/
def expandProgram (p : List HostStmt) : List HostEvent := p.flatMap HostStmt.expand

/-- The state a run of a host program starts from: every register at its reset value, no fault recorded, nothing in flight, and the
program's accesses to come (R211). -/
def launch (p : List HostStmt) : State := State.reset.withPending (expandProgram p)

/-! Building a payload. -/

/-- The payload bytes with given field values and byte 7 (R89). -/
def buildPayload (dev : BitVec 4) (t : BitVec 32) (st : BitVec 4) (rs rt b7 : Byte) : Payload :=
  #v[t.extractLsb' 0 4 ++ dev, t.extractLsb' 4 8, t.extractLsb' 12 8, t.extractLsb' 20 8,
    st ++ t.extractLsb' 28 4, rs, rt, b7]

/-- The hex digit with a given value, upper case (R81). -/
def hexDigit (n : BitVec 4) : Char := Char.ofNat (if n < 10 then 0x30 + n.toNat else 0x41 + (n.toNat - 10))

/-- The 16-character payload string of eight bytes, high nibble first (R107). -/
def hexString (b : Payload) : List Char :=
  (List.finRange 8).flatMap fun k => [hexDigit (b[k].extractLsb' 4 4), hexDigit (b[k].extractLsb' 0 4)]

end Sys2Proof.Machine
end

