-- ==== Sys2Proof/Machine/HostSide.lean ====
section
/-! DEFINITION. What the host makes of the registers: the values that SOC_X2 and TEMP_X2 denote (spec/42_scale_mappers.md), the
state name table (spec/41_field_extraction.md R129), the published record and the error report (spec/43_record.md R165
to R167, spec/60_exceptions.md R190), and the accesses of one request. Only functions of the registers: the transport,
the serialization and the wording of texts are out of scope (spec/00_scope.md R5). -/

namespace Sys2Proof.Machine

/-- The state-of-charge that SOC_X2 denotes, in percent: exactly SOC_X2 / 2 (R141). -/
def socValue (v : Byte) : ℚ := (v.toNat : ℚ) / 2

/-- The temperature that TEMP_X2 denotes: exactly sval_9(TEMP_X2) / 2 (R146). -/
def tempValue (v : BitVec 9) : ℚ := (v.toInt : ℚ) / 2

/-- The battery's operating states, a closed enumeration (R129, R130). -/
inductive BatteryState where
  | powerOff
  | powerOn
  | discharge
  | charge
  | chargeComplete
  | hostMode
  | shutdown
  /-- A state of the battery; no error report of the PDB (R129). -/
  | error
  | undefined
  deriving DecidableEq, Repr

/-- The state name table, code to state: no code above 8 has a name, and none is mapped to a default (R129, R130). -/
def batteryState (code : BitVec 4) : Option BatteryState :=
  match code.toNat with
  | 0 => some .powerOff
  | 1 => some .powerOn
  | 2 => some .discharge
  | 3 => some .charge
  | 4 => some .chargeComplete
  | 5 => some .hostMode
  | 6 => some .shutdown
  | 7 => some .error
  | 8 => some .undefined
  | _ => none

/-- The symbolic name of a state (R129). -/
def BatteryState.name : BatteryState → String
  | .powerOff => "power_off"
  | .powerOn => "power_on"
  | .discharge => "discharge"
  | .charge => "charge"
  | .chargeComplete => "charge_complete"
  | .hostMode => "host_mode"
  | .shutdown => "shutdown"
  | .error => "error"
  | .undefined => "undefined"

/-- The source's BatteryHealthRecord. DEVICE_TYPE is no part of it (R166). -/
structure BatteryHealthRecord where
  device : String
  time : Nat
  state : String
  stateOfCharge : ℚ
  temperature : ℚ
  deriving DecidableEq

/-- The record the host builds after RECORD: only when STATUS = OK, from registers that hold a value, with the device string
unchanged (R165, R166). -/
def publishRecord (device : String) (s : State) : Option BatteryHealthRecord :=
  if s.status = Status.ok.code then
    match s.time, s.stateCode.bind batteryState, s.socX2, s.tempX2 with
    | some t, some st, some soc, some temp =>
      some { device := device, time := t.toNat, state := st.name, stateOfCharge := socValue soc, temperature := tempValue temp }
    | _, _, _, _ => none
  else none

/-- The kinds of the host's boundary vocabulary. The PDB never causes `decodeError` (R190). -/
inductive HostErrorKind where
  | validationError
  | decodeError
  | internalError
  deriving DecidableEq, Repr

/-- The kind the host reports for a cause (R190). Code 4 is the host's own failures. No cause has code 0, and codes 6 and 7 are
reserved. -/
def hostErrorKind (code : BitVec 3) : Option HostErrorKind :=
  match code.toNat with
  | 1 => some .validationError
  | 2 => some .validationError
  | 3 => some .validationError
  | 4 => some .internalError
  | 5 => some .internalError
  | _ => none

/-- The fields that a detail entry names (R167). -/
inductive DetailField where
  | payload
  | state
  | stateOfCharge
  | temperature
  deriving DecidableEq, Repr

/-- The name of a field (R167). -/
def DetailField.name : DetailField → String
  | .payload => "payload"
  | .state => "state"
  | .stateOfCharge => "state_of_charge"
  | .temperature => "temperature"

/-- The value that a detail entry carries, from registers that may hold ⊥ (R167). -/
inductive DetailValue where
  /-- The table's dash: no value. -/
  | absent
  /-- Character position ERR_POS, byte ERR_BYTE. -/
  | position (pos : Option (BitVec 4)) (byte : Option (BitVec 3))
  /-- STATE_CODE. -/
  | code (code : Option (BitVec 4))
  /-- A state-of-charge or a temperature. -/
  | number (value : Option ℚ)
  /-- CMD. -/
  | command (cmd : Option Byte)
  deriving DecidableEq

/-- The constraint that a detail entry says was violated (R167). Its content only: the wording is not modelled. -/
inductive DetailConstraint where
  /-- Required. -/
  | required
  /-- Exactly this many characters. -/
  | exactLength (chars : Nat)
  /-- Hexadecimal digits only. -/
  | hexDigitsOnly
  /-- "invalid state code"; the valid codes go from `lowest` to `highest`. -/
  | validCodes (lowest highest : Nat)
  /-- The closed allowed range from `lowest` to `highest`. -/
  | allowedRange (lowest highest : ℚ)
  /-- Not a legal command. -/
  | legalCommand
  deriving DecidableEq

/-- One detail entry: the field it names, if it names one, the value, and the violated constraint (R167). -/
structure ErrorDetail where
  field : Option DetailField
  value : DetailValue
  constraint : DetailConstraint
  deriving DecidableEq

/-- One entry if the condition holds. -/
def entryIf (c : Prop) [Decidable c] (d : ErrorDetail) : List ErrorDetail := if c then [d] else []

/-- ERR_SUB = MISSING: `payload`, required (R167). -/
def missingEntry : ErrorDetail := ⟨some .payload, .absent, .required⟩

/-- ERR_SUB = LENGTH: `payload`, exactly 16 characters (R167). -/
def lengthEntry : ErrorDetail := ⟨some .payload, .absent, .exactLength Config.payloadChars.toNat⟩

/-- ERR_SUB = NONHEX: `payload`, its position and byte, hexadecimal digits only (R167). -/
def nonHexEntry (s : State) : ErrorDetail := ⟨some .payload, .position s.errPos s.errByte, .hexDigitsOnly⟩

/-- ERR_FLAGS[0]: `state`, STATE_CODE, valid codes 0 to 8 (R167). -/
def stateEntry (s : State) : ErrorDetail := ⟨some .state, .code s.stateCode, .validCodes 0 8⟩

/-- ERR_FLAGS[1]: `state_of_charge`, SOC_X2 / 2, allowed range [0,100] (R142, R167). -/
def socEntry (s : State) : ErrorDetail := ⟨some .stateOfCharge, .number (s.socX2.map socValue), .allowedRange 0 100⟩

/-- ERR_FLAGS[2]: `temperature`, sval_9(TEMP_X2) / 2, allowed range [-20,100] (R147, R167). -/
def tempEntry (s : State) : ErrorDetail := ⟨some .temperature, .number (s.tempX2.map tempValue), .allowedRange (-20) 100⟩

/-- ERR_CAUSE = ILLEGAL_OP: no field, CMD, not a legal command (R167). -/
def commandEntry (s : State) : ErrorDetail := ⟨none, .command s.cmd, .legalCommand⟩

/-- The detail entries of an error report, one for each condition of R167 that holds, in that table's order
(notes/assumptions/14.md). -/
def errorDetails (s : State) : List ErrorDetail :=
  entryIf (s.errSub = ErrSub.missing.code) missingEntry
    ++ entryIf (s.errSub = ErrSub.length.code) lengthEntry
    ++ entryIf (s.errSub = ErrSub.nonhex.code) (nonHexEntry s)
    ++ entryIf (s.errFlags.getLsbD 0) (stateEntry s)
    ++ entryIf (s.errFlags.getLsbD 1) (socEntry s)
    ++ entryIf (s.errFlags.getLsbD 2) (tempEntry s)
    ++ entryIf (s.errCause = ErrCause.illegalOp.code) (commandEntry s)

/-- What the host gives its caller. -/
inductive HostResponse where
  | record (r : BatteryHealthRecord)
  | error (kind : HostErrorKind) (details : List ErrorDetail)
  deriving DecidableEq

/-- The host's response from the registers after an operation: a record after OK, an error after ERROR, never both; nothing when
no operation has completed (R58, R164, R166, R190). -/
def hostResponse (device : String) (s : State) : Option HostResponse :=
  if s.status = Status.ok.code then (publishRecord device s).map .record
  else if s.status = Status.error.code then (hostErrorKind s.errCause).map fun k => .error k (errorDetails s)
  else none

/-- A request: the device string and the payload; none where the field is missing or is not a string (R25, D3, D6). -/
structure Request where
  device : String
  payload : Option (List Char)
  deriving DecidableEq, Repr

/-- What the host does with a request: under the policy `reject` an empty device is reported as a validation error and no operation
starts; otherwise the payload is loaded, or marked missing, and RECORD runs (R58, R165, C9). -/
def serveRequest (policy : Config.HostDeviceEmptyPolicy) (r : Request) : HostResponse ⊕ List HostStmt :=
  if policy = .reject ∧ r.device = "" then .inl (.error .validationError [])
  else
    match r.payload with
    | some s => .inr [.payload s, .exec .record]
    | none => .inr [.noPayload, .exec .record]

end Sys2Proof.Machine
end

