-- ==== Sys2Proof/Safety.lean ====
section
/-! DEFINITION. The terms that claims are stated in: what the inputs hold, what an operation leaves alone, what a successful run is,
and the invariant of the registers. -/

namespace Sys2Proof.Machine

/-- The inputs hold a well-formed payload string, the characters `cs` (R82). -/
structure HoldsPayload (s : State) (cs : Chars) : Prop where
  present : s.inPresent = 1
  length : s.inLen = some 16
  chars : ∀ i : Fin 16, s.inChar[i] = some cs[i]
  hex : ∀ i : Fin 16, ishex cs[i] = true

/-- Every input cell that the structural check must read holds a value (R106). -/
abbrev InputsReadable (s : State) : Prop :=
  s.inPresent = 1 → s.inLen.isSome = true ∧ (s.inLen = some 16 → ∀ i : Fin 16, s.inChar[i].isSome = true)

/-- The two states hold the same inputs (R42). -/
abbrev SameInputs (s t : State) : Prop := t.inChar = s.inChar ∧ t.inLen = s.inLen ∧ t.inPresent = s.inPresent

/-- The two states agree on what is not a register: the accesses to come, the recorded faults, what the host has read. -/
abbrev SameHostSide (s t : State) : Prop := t.pending = s.pending ∧ t.faults = s.faults ∧ t.reads = s.reads

/-- The two states hold the same in every output register (R42). -/
abbrev SameOutputs (s t : State) : Prop :=
  t.status = s.status ∧ t.errCause = s.errCause ∧ t.errSub = s.errSub ∧ t.errPos = s.errPos ∧ t.errByte = s.errByte
    ∧ t.errFlags = s.errFlags ∧ t.bytes = s.bytes ∧ t.deviceType = s.deviceType ∧ t.time = s.time
    ∧ t.stateCode = s.stateCode ∧ t.socX2 = s.socX2 ∧ t.tempX2 = s.tempX2

/-- Every register keeps its value. -/
abbrev SameRegisters (s t : State) : Prop := SameInputs s t ∧ t.cmd = s.cmd ∧ SameOutputs s t

/-- The five field registers hold ⊥. -/
abbrev FieldsClear (s : State) : Prop :=
  s.deviceType = none ∧ s.time = none ∧ s.stateCode = none ∧ s.socX2 = none ∧ s.tempX2 = none

/-- The eight cells of BYTES hold ⊥. -/
abbrev BytesClear (s : State) : Prop := ∀ k : Fin 8, s.bytes[k] = none

/-- The error report after `finish_ok` (R185). -/
abbrev ReportsOk (s : State) : Prop :=
  s.status = 1 ∧ s.errCause = 0 ∧ s.errSub = 0 ∧ s.errPos = none ∧ s.errByte = none ∧ s.errFlags = 0

/-- The error report of a cause without a position (R184). -/
abbrev ReportsError (s : State) (cause : BitVec 3) (sub : BitVec 2) (flags : BitVec 3) : Prop :=
  s.status = 2 ∧ s.errCause = cause ∧ s.errSub = sub ∧ s.errPos = none ∧ s.errByte = none ∧ s.errFlags = flags

/-- One of the seven legal commands (R71). -/
def IsLegal : Instr → Bool
  | .conv => true
  | .devtype => true
  | .time => true
  | .state => true
  | .soc => true
  | .temp => true
  | .record => true
  | .illegalOp7 _ => false
  | .illegalRsvd _ _ => false

/-- `(hexval(IN_CHAR[2k]) << 4) | hexval(IN_CHAR[2k+1])`, as R107 writes payload byte k of the characters `cs`. -/
def specByte (cs : Chars) (k : Fin 8) : Byte :=
  ((hexval cs[2 * k.val]).setWidth 8 <<< 4) ||| (hexval cs[2 * k.val + 1]).setWidth 8

/-- BYTES[0..7] hold the bytes of R107. -/
abbrev HoldsBytes (s : State) (cs : Chars) : Prop := ∀ k : Fin 8, s.bytes[k] = some (specByte cs k)

/-- T5‖T4‖T3‖T2‖T1 as R124 computes it from the payload bytes: (T5<<28)|(T4<<20)|(T3<<12)|(T2<<4)|T1, with T1 the high nibble of
byte 0 and T5 the low nibble of byte 4. -/
def specTime (cs : Chars) : Nat :=
  (specByte cs 4).toNat % 16 * 2 ^ 28 + (specByte cs 3).toNat * 2 ^ 20 + (specByte cs 2).toNat * 2 ^ 12
    + (specByte cs 1).toNat * 2 ^ 4 + (specByte cs 0).toNat / 16

/-- The state nibble: the high nibble of byte 4 (R128). -/
def specState (cs : Chars) : Nat := (specByte cs 4).toNat / 16

/-- On readable inputs that are no well-formed payload string, the command reports STRUCTURAL and leaves every result register ⊥;
it changes no input and records no fault (R103 to R106, R164). -/
def FailsStructurally (i : Instr) : Prop :=
  ∀ s : State, InputsReadable s → (¬∃ cs : Chars, HoldsPayload s cs) →
    ∃ t, exec i s = .next t ∧ t.status = 2 ∧ t.errCause = 1 ∧ t.errSub ≠ 0 ∧ t.errFlags = 0 ∧ t.cmd = some (encode i)
      ∧ BytesClear t ∧ FieldsClear t ∧ SameInputs s t ∧ SameHostSide s t

/-- The read of offset `a` gives the host the byte `v` and does nothing else (R54). -/
def ReadGives (s : State) (a : Offset) (v : Byte) : Prop :=
  ∃ t, memRead a s = .next t ∧ SameRegisters s t ∧ t.pending = s.pending ∧ t.faults = s.faults ∧ t.reads = s.reads ++ [(a, v)]

/-- The outcome is a host-access fault: it is recorded, no register changes and the host gets no value (R56, R188). -/
def HostAccessFault (s : State) (o : Host.Outcome State Fault Refusal) : Prop :=
  ∃ t f, o = .next t ∧ f ≠ Fault.unwrittenInput ∧ t.faults = s.faults ++ [f] ∧ SameRegisters s t ∧ t.pending = s.pending
    ∧ t.reads = s.reads

/-- The entry's value lies outside what its constraint allows: a code outside the valid codes, a number outside the allowed range
(R162, R167). -/
def ValueViolates (d : ErrorDetail) : Prop :=
  match d.constraint, d.value with
  | .validCodes lowest highest, .code (some c) => ¬(lowest ≤ c.toNat ∧ c.toNat ≤ highest)
  | .allowedRange lowest highest, .number (some v) => ¬(lowest ≤ v ∧ v ≤ highest)
  | _, _ => False

/-- A run has ended when no host access is to come (R210). -/
def Finished (s : State) : Prop := s.pending = []

/-- A successful run has ended and recorded no model fault. R188 and R210 give one half: a run that recorded a model fault is not
successful. That a finished run with no recorded fault is successful, whatever STATUS holds, is the model's reading: DESIGN
CHOICE (notes/assumptions/17.md). -/
def Successful (s : State) : Prop := Finished s ∧ s.faults = []

/-- The field registers hold ⊥ or the field of the payload bytes that BYTES holds, and exactly the registers of the last command
hold a value (R33 to R38, R101). -/
structure FieldsOf (s : State) (b : Payload) : Prop where
  bytes : ∀ k : Fin 8, s.bytes[k] = some b[k]
  deviceType : s.deviceType = if s.cmd = some 1 ∨ s.cmd = some 6 then some (deviceTypeOf b) else none
  time : s.time = if s.cmd = some 2 ∨ s.cmd = some 6 then some ((timeOf b).setWidth 36) else none
  stateCode : s.stateCode = if s.cmd = some 3 ∨ s.cmd = some 6 then some (stateCodeOf b) else none
  socX2 : s.socX2 = if s.cmd = some 4 ∨ s.cmd = some 6 then some (socOf b) else none
  tempX2 : s.tempX2 = if s.cmd = some 5 ∨ s.cmd = some 6 then some (tempX2Of (rawTempOf b)) else none

/-- The registers of a machine that has only been reset and driven by host accesses. The clauses that tie the other registers to CMD
(idle_iff, illegal_iff, results) rest on the model's reading that CMD keeps its value on UNWRITTEN_INPUT
(notes/assumptions/3.md). -/
structure Inv (s : State) : Prop where
  /-- STATUS is never 3 (R27, I6). -/
  status_legal : s.status ≠ 3
  /-- ERR_CAUSE is never 4, 6 or 7 (R28, R186, I7). -/
  cause_legal : s.errCause ≠ 4 ∧ s.errCause ≠ 6 ∧ s.errCause ≠ 7
  /-- IDLE means that no operation has completed since reset, so CMD still holds ⊥ (R26, R27). -/
  idle_iff : s.status = 0 ↔ s.cmd = none
  /-- STATUS is ERROR exactly when ERR_CAUSE names an error (R27, R28). -/
  error_iff : s.status = 2 ↔ s.errCause ≠ 0
  /-- ILLEGAL_OP is the report of the illegal command bytes and of no other (R72). -/
  illegal_iff : s.errCause = 5 ↔ ∃ v : Byte, s.cmd = some v ∧ 6 < v
  /-- ERR_SUB is nonzero exactly for a STRUCTURAL error (R29, R181). -/
  sub_iff : s.errSub ≠ 0 ↔ s.errCause = 1
  /-- ERR_POS holds a value exactly after NONHEX (R30). -/
  pos_iff : s.errPos.isSome = true ↔ s.errSub = 3
  /-- ERR_BYTE is ERR_POS >> 1 and holds a value exactly when ERR_POS does (R31). -/
  byte_eq : s.errByte = s.errPos.map errByteOf
  /-- DECODE has the STATE_INVALID bit set (R163, R180). -/
  decode_flags : s.errCause = 2 → s.errFlags.getLsbD 0 = true
  /-- RANGE has a range bit set and not STATE_INVALID (R163, R180). -/
  range_flags : s.errCause = 3 → s.errFlags ≠ 0 ∧ s.errFlags.getLsbD 0 = false
  /-- ERR_FLAGS is 0 for every other outcome (R32). -/
  other_flags : s.errCause ≠ 2 → s.errCause ≠ 3 → s.errFlags = 0
  /-- Results stand after OK, DECODE and RANGE; then they are the fields of one payload (R33, R164, R184). -/
  results : s.status = 1 ∨ s.errCause = 2 ∨ s.errCause = 3 → ∃ b : Payload, FieldsOf s b
  /-- After any other outcome every result register holds ⊥ (R33, R101, R164). -/
  no_results : ¬(s.status = 1 ∨ s.errCause = 2 ∨ s.errCause = 3) → BytesClear s ∧ FieldsClear s
  /-- TIME[35:32] are 0 (R35). -/
  time_high : ∀ t : BitVec 36, s.time = some t → t.toNat < 2 ^ 32
  /-- TEMP_X2 lies in -40..215 (R38). -/
  temp_range : ∀ v : BitVec 9, s.tempX2 = some v → -40 ≤ v.toInt ∧ v.toInt ≤ 215

end Sys2Proof.Machine
end

