-- ==== Sys2Proof/Certificates/Slice0/Obligations.lean ====
section
/-! DEFINITION. The statements for the provers. Each docstring names the rules of spec/ that it formalises. The PDB has no general
registers, no program counter and no data memory (R21, R22, R50): a frame here speaks of the input registers, the output
registers, CMD, and of what is not a register (the accesses to come, the recorded faults, what the host has read). -/

open Sys2Proof Sys2Proof.Machine

/-! The command byte. -/

/-- R70, R71: the seven legal command bytes and two of the illegal ones, as R71, V23 and V24 write them. -/
def Obligations.CommandBytesDecodeAsWritten : Prop :=
  decodeByte 0x00 = .conv ∧ decodeByte 0x01 = .devtype ∧ decodeByte 0x02 = .time ∧ decodeByte 0x03 = .state
    ∧ decodeByte 0x04 = .soc ∧ decodeByte 0x05 = .temp ∧ decodeByte 0x06 = .record
    ∧ decodeByte 0x07 = .illegalOp7 0 ∧ decodeByte 0x08 = .illegalRsvd 1 0

/-- R70 to R73: decoding the byte of a well-formed command gives the command and leaves the bytes after it; every byte decodes to a
well-formed command whose byte it is. -/
def Obligations.DecodeAndEncodeAgree : Prop :=
  (∀ (i : Instr) (rest : List Byte), WellFormed i = true → decode (encode i :: rest) = .ok (i, rest))
    ∧ ∀ v : Byte, WellFormed (decodeByte v) = true ∧ encode (decodeByte v) = v

/-- R72: a byte with OP = 7 or RSVD ≠ 0 is illegal, the operation it starts raises ILLEGAL_OP whatever the inputs hold, and the 256
values split into 0x00 to 0x06 and 0x07 to 0xFF. -/
def Obligations.IllegalCommandBytes : Prop :=
  ∀ v : Byte,
    (IsLegal (decodeByte v) = false ↔ v &&& 0x07 = 0x07 ∨ v >>> 3 ≠ 0)
      ∧ (IsLegal (decodeByte v) = true ↔ v.toNat ≤ 6)
      ∧ (IsLegal (decodeByte v) = false →
          ∀ s : State, ∃ t, exec (decodeByte v) s = .next t ∧ t.status = 2 ∧ t.errCause = 5 ∧ SameHostSide s t)

/-- R102: an illegal command ends with STATUS = ERROR, ERR_CAUSE = 5, ERR_SUB = 0, ERR_FLAGS = 0 and every result register ⊥,
whatever the inputs hold; it changes no input and records no fault. Both illegal rows complete in every state. -/
def Obligations.IllegalOpReport : Prop :=
  ∀ (i : Instr) (s : State), IsLegal i = false →
    ∃ t, exec i s = .next t ∧ ReportsError t 5 0 0 ∧ t.cmd = some (encode i) ∧ BytesClear t ∧ FieldsClear t
      ∧ SameInputs s t ∧ SameHostSide s t

/-! The step. -/

/-- R26, R55, R62, R100: when the host's next access writes CMD, the step is exec of the command that byte decodes to, on the state
without that access. -/
def Obligations.StepRunsDecodedCommand : Prop :=
  ∀ (s : State) (v : Byte) (rest : List HostEvent), s.pending = .write 0x12 v :: rest →
    step s = exec (decodeByte v) (s.withPending rest)

/-- R54, R55, R59, R197, R200: any other step is the host's next access, or the reset, on the state without it; with nothing to come
the machine stays as it is. -/
def Obligations.StepRunsNextHostEvent : Prop :=
  (∀ s : State, s.pending = [] → step s = .next s)
    ∧ ∀ (s : State) (rest : List HostEvent),
        (∀ a : Offset, s.pending = .read a :: rest → step s = memRead a (s.withPending rest))
        ∧ (∀ (a : Offset) (v : Byte), s.pending = .write a v :: rest → step s = memWrite a v (s.withPending rest))
        ∧ (s.pending = .reset :: rest → step s = .next (s.withPending rest).applyReset)

/-- R100, R211: no run can hang and no step stops. -/
def Obligations.StepAlwaysGoesOn : Prop := ∀ s : State, ∃ t, step s = .next t

/-! The structural check. -/

/-- R103: with IN_PRESENT = 0 every legal command reports STRUCTURAL/MISSING, whatever IN_LEN and IN_CHAR hold, ⊥ included. -/
def Obligations.MissingPayloadReport : Prop :=
  ∀ (i : Instr) (s : State), IsLegal i = true → s.inPresent = 0 →
    ∃ t, exec i s = .next t ∧ ReportsError t 1 1 0 ∧ t.cmd = some (encode i) ∧ BytesClear t ∧ FieldsClear t
      ∧ SameInputs s t ∧ SameHostSide s t

/-- R104: with a length other than 16 every legal command reports STRUCTURAL/LENGTH, whatever IN_CHAR holds, ⊥ included. -/
def Obligations.WrongLengthReport : Prop :=
  ∀ (i : Instr) (s : State) (n : Byte), IsLegal i = true → s.inPresent = 1 → s.inLen = some n → n ≠ 16 →
    ∃ t, exec i s = .next t ∧ ReportsError t 1 2 0 ∧ t.cmd = some (encode i) ∧ BytesClear t ∧ FieldsClear t
      ∧ SameInputs s t ∧ SameHostSide s t

/-- R105: p is the lowest position whose character is not a hex digit; every legal command reports STRUCTURAL/NONHEX with
ERR_POS = p and ERR_BYTE = p >> 1. -/
def Obligations.NonHexReport : Prop :=
  ∀ (i : Instr) (s : State) (cs : Chars) (p : Fin 16), IsLegal i = true → s.inPresent = 1 → s.inLen = some 16 →
    (∀ j : Fin 16, s.inChar[j] = some cs[j]) → ishex cs[p] = false → (∀ j : Fin 16, j < p → ishex cs[j] = true) →
    ∃ t, exec i s = .next t ∧ t.status = 2 ∧ t.errCause = 1 ∧ t.errSub = 3 ∧ t.errFlags = 0
      ∧ t.errPos = some (BitVec.ofNat 4 p.val) ∧ t.errByte = some (BitVec.ofNat 3 (p.val / 2))
      ∧ t.cmd = some (encode i) ∧ BytesClear t ∧ FieldsClear t ∧ SameInputs s t ∧ SameHostSide s t

/-- R189: a legal command that must read an input cell holding ⊥ records UNWRITTEN_INPUT and changes no register (that CMD is among
them is the model's reading, notes/assumptions/3.md); on readable inputs no command records a fault. -/
def Obligations.UnwrittenInputFault : Prop :=
  (∀ (i : Instr) (s : State), IsLegal i = true → s.inPresent = 1 →
      (s.inLen = none ∨ s.inLen = some 16 ∧ ∃ k : Fin 16, s.inChar[k] = none) →
      ∃ t, exec i s = .next t ∧ SameRegisters s t ∧ t.faults = s.faults ++ [.unwrittenInput] ∧ t.pending = s.pending
        ∧ t.reads = s.reads)
    ∧ ∀ (i : Instr) (s : State), InputsReadable s → ∃ t, exec i s = .next t ∧ t.faults = s.faults

/-! The hex digits and the conversion. -/

/-- R80, R81: exactly the codes of three ranges are hex digits, with the values R81 gives, and an upper-case digit has the value of
its lower-case form. -/
def Obligations.HexDigitValues : Prop :=
  ∀ c : Byte,
    (ishex c = true ↔ (0x30 ≤ c.toNat ∧ c.toNat ≤ 0x39) ∨ (0x41 ≤ c.toNat ∧ c.toNat ≤ 0x46) ∨ (0x61 ≤ c.toNat ∧ c.toNat ≤ 0x66))
      ∧ (0x30 ≤ c.toNat ∧ c.toNat ≤ 0x39 → (hexval c).toNat = c.toNat - 0x30)
      ∧ (0x41 ≤ c.toNat ∧ c.toNat ≤ 0x46 → (hexval c).toNat = c.toNat - 0x41 + 10 ∧ hexval (c + 0x20) = hexval c)
      ∧ (0x61 ≤ c.toNat ∧ c.toNat ≤ 0x66 → (hexval c).toNat = c.toNat - 0x61 + 10)

/-- R107: on a well-formed payload string every legal command leaves in BYTES[k] the byte whose high nibble is the character at 2k
and whose low nibble is the character at 2k+1. -/
def Obligations.ConversionBytes : Prop :=
  ∀ (i : Instr) (s : State) (cs : Chars), IsLegal i = true → HoldsPayload s cs →
    ∃ t, exec i s = .next t ∧
      ∀ k : Fin 8, ∃ b : Byte, t.bytes[k] = some b
        ∧ b = ((hexval cs[2 * k.val]).setWidth 8 <<< 4) ||| (hexval cs[2 * k.val + 1]).setWidth 8
        ∧ b.toNat = 16 * (hexval cs[2 * k.val]).toNat + (hexval cs[2 * k.val + 1]).toNat

/-- R108: CONV on a well-formed payload string, and on any other readable input. -/
def Obligations.ConvResult : Prop :=
  encode .conv = 0x00 ∧ FailsStructurally .conv ∧
    ∀ (s : State) (cs : Chars), HoldsPayload s cs →
      ∃ t, exec .conv s = .next t ∧ ReportsOk t ∧ t.cmd = some 0x00 ∧ HoldsBytes t cs ∧ FieldsClear t
        ∧ SameInputs s t ∧ SameHostSide s t

/-! The field operations. -/

/-- R120: DEVTYPE accepts every device type, and the state code and the ranges do not matter. -/
def Obligations.DevtypeResult : Prop :=
  encode .devtype = 0x01 ∧ FailsStructurally .devtype ∧
    ∀ (s : State) (cs : Chars), HoldsPayload s cs →
      ∃ t, exec .devtype s = .next t ∧ ReportsOk t ∧ t.cmd = some 0x01 ∧ HoldsBytes t cs
        ∧ t.deviceType = some ((specByte cs 0 &&& 0x0F).setWidth 4)
        ∧ t.time = none ∧ t.stateCode = none ∧ t.socX2 = none ∧ t.tempX2 = none ∧ SameInputs s t ∧ SameHostSide s t

/-- R124: TIME holds T5‖T4‖T3‖T2‖T1, unsigned, with bits 35:32 zero, and no time is rejected (R125). -/
def Obligations.TimeResult : Prop :=
  encode .time = 0x02 ∧ FailsStructurally .time ∧
    ∀ (s : State) (cs : Chars), HoldsPayload s cs →
      ∃ t x, exec .time s = .next t ∧ ReportsOk t ∧ t.cmd = some 0x02 ∧ HoldsBytes t cs
        ∧ t.time = some x ∧ x.toNat = specTime cs ∧ x.extractLsb' 32 4 = 0
        ∧ t.deviceType = none ∧ t.stateCode = none ∧ t.socX2 = none ∧ t.tempX2 = none ∧ SameInputs s t ∧ SameHostSide s t

/-- R128, R130: STATE keeps the raw nibble; it raises DECODE with flags 0b001 exactly for 9 to 15. -/
def Obligations.StateResult : Prop :=
  encode .state = 0x03 ∧ FailsStructurally .state ∧
    ∀ (s : State) (cs : Chars), HoldsPayload s cs →
      ∃ t, exec .state s = .next t ∧ t.stateCode = some (BitVec.ofNat 4 (specState cs))
        ∧ (if 8 < specState cs then ReportsError t 2 0 0b001 else ReportsOk t)
        ∧ t.cmd = some 0x03 ∧ HoldsBytes t cs
        ∧ t.deviceType = none ∧ t.time = none ∧ t.socX2 = none ∧ t.tempX2 = none ∧ SameInputs s t ∧ SameHostSide s t

/-- R140: SOC keeps the raw byte; it raises RANGE with flags 0b010 exactly above 200. -/
def Obligations.SocResult : Prop :=
  encode .soc = 0x04 ∧ FailsStructurally .soc ∧
    ∀ (s : State) (cs : Chars), HoldsPayload s cs →
      ∃ t, exec .soc s = .next t ∧ t.socX2 = some (specByte cs 5)
        ∧ (if 200 < (specByte cs 5).toNat then ReportsError t 3 0 0b010 else ReportsOk t)
        ∧ t.cmd = some 0x04 ∧ HoldsBytes t cs
        ∧ t.deviceType = none ∧ t.time = none ∧ t.stateCode = none ∧ t.tempX2 = none ∧ SameInputs s t ∧ SameHostSide s t

/-- R145: TEMP_X2 denotes the integer rt - 40; TEMP raises RANGE with flags 0b100 exactly above 240. -/
def Obligations.TempResult : Prop :=
  encode .temp = 0x05 ∧ FailsStructurally .temp ∧
    ∀ (s : State) (cs : Chars), HoldsPayload s cs →
      ∃ t x, exec .temp s = .next t ∧ t.tempX2 = some x ∧ x.toInt = ((specByte cs 6).toNat : Int) - 40
        ∧ (if 240 < (specByte cs 6).toNat then ReportsError t 3 0 0b100 else ReportsOk t)
        ∧ t.cmd = some 0x05 ∧ HoldsBytes t cs
        ∧ t.deviceType = none ∧ t.time = none ∧ t.stateCode = none ∧ t.socX2 = none ∧ SameInputs s t ∧ SameHostSide s t

/-! RECORD. -/

/-- R160: RECORD writes all five fields; each violated check sets its own bit; DECODE if the state code is invalid, RANGE if only a
range is. -/
def Obligations.RecordResult : Prop :=
  encode .record = 0x06 ∧ FailsStructurally .record ∧
    ∀ (s : State) (cs : Chars), HoldsPayload s cs →
      ∃ t x y, exec .record s = .next t ∧ t.deviceType = some ((specByte cs 0 &&& 0x0F).setWidth 4)
        ∧ t.time = some x ∧ x.toNat = specTime cs ∧ t.stateCode = some (BitVec.ofNat 4 (specState cs))
        ∧ t.socX2 = some (specByte cs 5) ∧ t.tempX2 = some y ∧ y.toInt = ((specByte cs 6).toNat : Int) - 40
        ∧ (t.errFlags.getLsbD 0 = true ↔ 8 < specState cs)
        ∧ (t.errFlags.getLsbD 1 = true ↔ 200 < (specByte cs 5).toNat)
        ∧ (t.errFlags.getLsbD 2 = true ↔ 240 < (specByte cs 6).toNat)
        ∧ (if 8 < specState cs then ReportsError t 2 0 t.errFlags
            else if 200 < (specByte cs 5).toNat ∨ 240 < (specByte cs 6).toNat then ReportsError t 3 0 t.errFlags
            else ReportsOk t)
        ∧ t.cmd = some 0x06 ∧ HoldsBytes t cs ∧ SameInputs s t ∧ SameHostSide s t

/-- R161: on a well-formed payload string RECORD leaves in each field register, and in BYTES, what the single-field command leaves
there, run alone on the same input. -/
def Obligations.RecordAgreesWithSingleFields : Prop :=
  ∀ (s : State) (cs : Chars), HoldsPayload s cs →
    ∃ r d u c o p, exec .record s = .next r ∧ exec .devtype s = .next d ∧ exec .time s = .next u ∧ exec .state s = .next c
      ∧ exec .soc s = .next o ∧ exec .temp s = .next p
      ∧ r.deviceType = d.deviceType ∧ r.time = u.time ∧ r.stateCode = c.stateCode ∧ r.socX2 = o.socX2 ∧ r.tempX2 = p.tempX2
      ∧ r.bytes = d.bytes ∧ r.errFlags = c.errFlags ||| o.errFlags ||| p.errFlags

/-- R163: in the report of RECORD the STATE_INVALID bit means DECODE whatever the other bits are; range bits alone mean RANGE. -/
def Obligations.RecordCausePriority : Prop :=
  ∀ (s : State) (cs : Chars), HoldsPayload s cs →
    ∃ t, exec .record s = .next t
      ∧ (t.errFlags.getLsbD 0 = true → t.errCause = 2)
      ∧ (t.errFlags.getLsbD 0 = false → t.errFlags ≠ 0 → t.errCause = 3)
      ∧ (t.errFlags = 0 → t.errCause = 0)

/-- R191: one operation reports exactly one cause, the first condition that holds in the order ILLEGAL_OP, MISSING, LENGTH, NONHEX,
DECODE, RANGE. -/
def Obligations.CauseByPriority : Prop :=
  ∀ (v : Byte) (s : State), InputsReadable s →
    ∃ t, exec (decodeByte v) s = .next t
      ∧ (6 < v.toNat → t.errCause = 5)
      ∧ (v.toNat ≤ 6 → s.inPresent = 0 → t.errCause = 1 ∧ t.errSub = 1)
      ∧ (v.toNat ≤ 6 → s.inPresent = 1 → s.inLen ≠ some 16 → t.errCause = 1 ∧ t.errSub = 2)
      ∧ (v.toNat ≤ 6 → s.inPresent = 1 → s.inLen = some 16 → (¬∃ cs : Chars, HoldsPayload s cs) →
          t.errCause = 1 ∧ t.errSub = 3)
      ∧ ∀ cs : Chars, HoldsPayload s cs → v.toNat ≤ 6 →
          t.errCause =
            if (v = 3 ∨ v = 6) ∧ 8 < specState cs then 2
            else if (v = 4 ∨ v = 6) ∧ 200 < (specByte cs 5).toNat ∨ (v = 5 ∨ v = 6) ∧ 240 < (specByte cs 6).toNat then 3
            else 0

/-! The payload layout. -/

/-- R84: the field position table, row by row. -/
def Obligations.FieldPositionTable : Prop :=
  ∀ b : Payload,
    deviceTypeOf b = b[0].extractLsb' 0 4
      ∧ (timeOf b).extractLsb' 0 4 = b[0].extractLsb' 4 4
      ∧ (timeOf b).extractLsb' 4 8 = b[1]
      ∧ (timeOf b).extractLsb' 12 8 = b[2]
      ∧ (timeOf b).extractLsb' 20 8 = b[3]
      ∧ (timeOf b).extractLsb' 28 4 = b[4].extractLsb' 0 4
      ∧ stateCodeOf b = b[4].extractLsb' 4 4
      ∧ socOf b = b[5]
      ∧ rawTempOf b = b[6]

/-- R85: with W the 64-bit little-endian word of the payload bytes, every field is a contiguous bit range of W. -/
def Obligations.FieldsOfPayloadWord : Prop :=
  ∀ (b : Payload) (w : BitVec 64),
    w.toNat = b[0].toNat + b[1].toNat * 2 ^ 8 + b[2].toNat * 2 ^ 16 + b[3].toNat * 2 ^ 24 + b[4].toNat * 2 ^ 32
        + b[5].toNat * 2 ^ 40 + b[6].toNat * 2 ^ 48 + b[7].toNat * 2 ^ 56 →
      deviceTypeOf b = w.extractLsb' 0 4 ∧ timeOf b = w.extractLsb' 4 32 ∧ stateCodeOf b = w.extractLsb' 36 4
        ∧ socOf b = w.extractLsb' 40 8 ∧ rawTempOf b = w.extractLsb' 48 8

/-- R86: each character position of the payload string carries one nibble. -/
def Obligations.NibbleOfCharacter : Prop :=
  ∀ cs : Chars,
    let b := convertBytes cs
    (timeOf b).extractLsb' 0 4 = hexval cs[0] ∧ deviceTypeOf b = hexval cs[1]
      ∧ (timeOf b).extractLsb' 8 4 = hexval cs[2] ∧ (timeOf b).extractLsb' 4 4 = hexval cs[3]
      ∧ (timeOf b).extractLsb' 16 4 = hexval cs[4] ∧ (timeOf b).extractLsb' 12 4 = hexval cs[5]
      ∧ (timeOf b).extractLsb' 24 4 = hexval cs[6] ∧ (timeOf b).extractLsb' 20 4 = hexval cs[7]
      ∧ stateCodeOf b = hexval cs[8] ∧ (timeOf b).extractLsb' 28 4 = hexval cs[9]
      ∧ (socOf b).extractLsb' 4 4 = hexval cs[10] ∧ (socOf b).extractLsb' 0 4 = hexval cs[11]
      ∧ (rawTempOf b).extractLsb' 4 4 = hexval cs[12] ∧ (rawTempOf b).extractLsb' 0 4 = hexval cs[13]
      ∧ b[7].extractLsb' 4 4 = hexval cs[14] ∧ b[7].extractLsb' 0 4 = hexval cs[15]

/-- R89: the inverse of the field position table, and decoding its result gives the field values back (R126). -/
def Obligations.PayloadOfFieldsRoundTrip : Prop :=
  ∀ (dev : BitVec 4) (t : BitVec 32) (st : BitVec 4) (rs rt b7 : Byte),
    let b := buildPayload dev t st rs rt b7
    b[0] = ((t.extractLsb' 0 4).setWidth 8 <<< 4) ||| dev.setWidth 8
      ∧ b[1] = t.extractLsb' 4 8 ∧ b[2] = t.extractLsb' 12 8 ∧ b[3] = t.extractLsb' 20 8
      ∧ b[4] = (st.setWidth 8 <<< 4) ||| (t.extractLsb' 28 4).setWidth 8
      ∧ b[5] = rs ∧ b[6] = rt ∧ b[7] = b7
      ∧ deviceTypeOf b = dev ∧ timeOf b = t ∧ stateCodeOf b = st ∧ socOf b = rs ∧ rawTempOf b = rt

/-- R126, the converse: a payload is the one built from its own fields and its byte 7, so its time determines the fragments. -/
def Obligations.FieldsDeterminePayload : Prop :=
  ∀ b : Payload, buildPayload (deviceTypeOf b) (timeOf b) (stateCodeOf b) (socOf b) (rawTempOf b) b[7] = b

/-! The values and the names. -/

/-- R141, R142: SOC_X2 denotes raw/2, a multiple of 0.5 from 0 to 127.5, strictly increasing in the raw byte; the check sets its bit
exactly outside [0, 100]. -/
def Obligations.SocScale : Prop :=
  (∀ raw : Byte, 2 * socValue raw = raw.toNat ∧ 0 ≤ socValue raw ∧ socValue raw ≤ 255 / 2
      ∧ (0 ≤ socValue raw ∧ socValue raw ≤ 100 ↔ raw.toNat ≤ 200)
      ∧ (socRangeFlag raw = 0 ↔ 0 ≤ socValue raw ∧ socValue raw ≤ 100))
    ∧ ∀ raw raw' : Byte, raw.toNat < raw'.toNat → socValue raw < socValue raw'

/-- R146, R147: TEMP_X2 denotes half its two's complement value, which is raw/2 - 20, a multiple of 0.5 from -20 to
107.5, strictly increasing in the raw byte; the check sets its bit exactly outside [-20, 100]. -/
def Obligations.TempScale : Prop :=
  (∀ v : BitVec 9, 2 * tempValue v = v.toInt)
    ∧ (∀ raw : Byte, tempValue (tempX2Of raw) = (raw.toNat : ℚ) / 2 - 20 ∧ -20 ≤ tempValue (tempX2Of raw)
      ∧ tempValue (tempX2Of raw) ≤ 215 / 2
      ∧ (-20 ≤ tempValue (tempX2Of raw) ∧ tempValue (tempX2Of raw) ≤ 100 ↔ raw.toNat ≤ 240)
      ∧ (tempRangeFlag raw = 0 ↔ -20 ≤ tempValue (tempX2Of raw) ∧ tempValue (tempX2Of raw) ≤ 100))
    ∧ ∀ raw raw' : Byte, raw.toNat < raw'.toNat → tempValue (tempX2Of raw) < tempValue (tempX2Of raw')

/-- R129, R130: the names of the state codes, in list order; 9 to 15 have none. -/
def Obligations.StateNameTable : Prop :=
  ∀ code : BitVec 4,
    (batteryState code).map BatteryState.name =
      (["power_off", "power_on", "discharge", "charge", "charge_complete", "host_mode", "shutdown", "error", "undefined"])[code.toNat]?

/-! The register map. -/

/-- R51: the offsets of the register map, and which offsets are unmapped. -/
def Obligations.RegisterMapOffsets : Prop :=
  (∀ i : Fin 16, regMap (BitVec.ofNat 6 i.val) = some (.input (.inChar i)))
    ∧ regMap 0x10 = some (.input .inLen) ∧ regMap 0x11 = some (.input .inPresent) ∧ regMap 0x12 = some (.input .cmd)
    ∧ regMap 0x20 = some (.output .status) ∧ regMap 0x21 = some (.output .errCause) ∧ regMap 0x22 = some (.output .errSub)
    ∧ regMap 0x23 = some (.output .errPos) ∧ regMap 0x24 = some (.output .errByte) ∧ regMap 0x25 = some (.output .errFlags)
    ∧ (∀ k : Fin 8, regMap (BitVec.ofNat 6 (0x28 + k.val)) = some (.output (.byteAt k)))
    ∧ regMap 0x30 = some (.output .deviceType) ∧ regMap 0x31 = some (.output .stateCode) ∧ regMap 0x32 = some (.output .socX2)
    ∧ regMap 0x34 = some (.output .tempLow) ∧ regMap 0x35 = some (.output .tempHigh)
    ∧ (∀ j : Fin 5, regMap (BitVec.ofNat 6 (0x38 + j.val)) = some (.output (.timeByte j)))
    ∧ (∀ r : OutReg, regMap r.offset = some (.output r)) ∧ (∀ r : InReg, regMap r.offset = some (.input r))
    ∧ ∀ a : Offset, regMap a = none ↔ (0x13 ≤ a.toNat ∧ a.toNat ≤ 0x1F) ∨ a = 0x26 ∨ a = 0x27 ∨ a = 0x33 ∨ a = 0x36 ∨ a = 0x37
        ∨ 0x3D ≤ a.toNat

/-- R51, R54: a read of a narrow or byte-wide output register that holds a value gives that value with zeros above it, and nothing
else happens. -/
def Obligations.ReadGivesRegister : Prop :=
  ∀ s : State,
    ReadGives s 0x20 (BitVec.ofNat 8 s.status.toNat)
      ∧ ReadGives s 0x21 (BitVec.ofNat 8 s.errCause.toNat)
      ∧ ReadGives s 0x22 (BitVec.ofNat 8 s.errSub.toNat)
      ∧ (∀ x, s.errPos = some x → ReadGives s 0x23 (BitVec.ofNat 8 x.toNat))
      ∧ (∀ x, s.errByte = some x → ReadGives s 0x24 (BitVec.ofNat 8 x.toNat))
      ∧ ReadGives s 0x25 (BitVec.ofNat 8 s.errFlags.toNat)
      ∧ (∀ (k : Fin 8) (x : Byte), s.bytes[k] = some x → ReadGives s (BitVec.ofNat 6 (0x28 + k.val)) x)
      ∧ (∀ x, s.deviceType = some x → ReadGives s 0x30 (BitVec.ofNat 8 x.toNat))
      ∧ (∀ x, s.stateCode = some x → ReadGives s 0x31 (BitVec.ofNat 8 x.toNat))
      ∧ (∀ x, s.socX2 = some x → ReadGives s 0x32 x)

/-- R51, R52: TEMP_X2 reads as the two bytes of its 16-bit two's complement and TIME as the five bytes of its 40-bit value, the less
significant byte at the lower offset; offset 0x3C reads 0 when TIME[35:32] are 0, as they always are (R35). -/
def Obligations.MultiByteReadsLittleEndian : Prop :=
  ∀ s : State,
    (∀ x, s.tempX2 = some x →
        ∃ lo hi : Byte, ReadGives s 0x34 lo ∧ ReadGives s 0x35 hi ∧ (hi ++ lo : BitVec 16).toInt = x.toInt)
      ∧ (∀ x, s.time = some x →
          (∀ j : Fin 5, ReadGives s (BitVec.ofNat 6 (0x38 + j.val)) (BitVec.ofNat 8 (x.toNat / 2 ^ (8 * j.val))))
            ∧ (x.toNat < 2 ^ 32 → ReadGives s 0x3C 0))

/-- R55: a write of an input register stores the value and does nothing else; in particular no output register changes. -/
def Obligations.InputWriteStoresValue : Prop :=
  ∀ (s : State) (v : Byte),
    (∀ i : Fin 16, ∃ t, memWrite (BitVec.ofNat 6 i.val) v s = .next t ∧ t.inChar[i] = some v
        ∧ (∀ j : Fin 16, j ≠ i → t.inChar[j] = s.inChar[j]) ∧ t.inLen = s.inLen ∧ t.inPresent = s.inPresent
        ∧ t.cmd = s.cmd ∧ SameOutputs s t ∧ SameHostSide s t)
      ∧ (∃ t, memWrite 0x10 v s = .next t ∧ t.inLen = some v ∧ t.inChar = s.inChar ∧ t.inPresent = s.inPresent
          ∧ t.cmd = s.cmd ∧ SameOutputs s t ∧ SameHostSide s t)
      ∧ (v.toNat < 2 → ∃ t, memWrite 0x11 v s = .next t ∧ t.inPresent.toNat = v.toNat ∧ t.inChar = s.inChar
          ∧ t.inLen = s.inLen ∧ t.cmd = s.cmd ∧ SameOutputs s t ∧ SameHostSide s t)

/-- R56: the accesses that are host-access faults; a faulting access changes no register. -/
def Obligations.HostAccessFaultCases : Prop :=
  ∀ s : State,
    (∀ a : Offset, (∀ r : OutReg, a ≠ r.offset) → HostAccessFault s (memRead a s))
      ∧ (∀ (a : Offset) (v : Byte), (∀ r : InReg, a ≠ r.offset) → HostAccessFault s (memWrite a v s))
      ∧ (∀ v : Byte, 2 ≤ v.toNat → HostAccessFault s (memWrite 0x11 v s))
      ∧ ∀ r : OutReg, outByte s r = none → HostAccessFault s (memRead r.offset s)

/-- R51: a multi-byte register that holds ⊥ reads as ⊥ at every one of its offsets, and so do the other cells that may hold ⊥. -/
def Obligations.ReadOfNoValueFaults : Prop :=
  ∀ s : State,
    (s.tempX2 = none → HostAccessFault s (memRead 0x34 s) ∧ HostAccessFault s (memRead 0x35 s))
      ∧ (s.time = none → ∀ j : Fin 5, HostAccessFault s (memRead (BitVec.ofNat 6 (0x38 + j.val)) s))
      ∧ (∀ k : Fin 8, s.bytes[k] = none → HostAccessFault s (memRead (BitVec.ofNat 6 (0x28 + k.val)) s))
      ∧ (s.errPos = none → HostAccessFault s (memRead 0x23 s)) ∧ (s.errByte = none → HostAccessFault s (memRead 0x24 s))
      ∧ (s.deviceType = none → HostAccessFault s (memRead 0x30 s)) ∧ (s.stateCode = none → HostAccessFault s (memRead 0x31 s))
      ∧ (s.socX2 = none → HostAccessFault s (memRead 0x32 s))

/-! Operations as functions of the inputs. -/

/-- R42: no operation writes an input register; nor does it touch the accesses to come or what the host has read, and it clears no
recorded fault. -/
def Obligations.OperationFrame : Prop :=
  ∀ (i : Instr) (s : State),
    ∃ t, exec i s = .next t ∧ SameInputs s t ∧ t.pending = s.pending ∧ t.reads = s.reads ∧ s.faults <+: t.faults

/-- R57: two operations with the same command and the same inputs leave the same values in every output register and in CMD,
whatever the registers held before; repeating an operation changes no register; no read changes one. The clause for
operations that are UNWRITTEN_INPUT model faults says that both write no register (R189); that CMD is among the registers
that keep their value is the model's reading (notes/assumptions/3.md). -/
def Obligations.OperationDependsOnInputsOnly : Prop :=
  (∀ (i : Instr) (s s' : State), SameInputs s s' →
      ∃ t t', exec i s = .next t ∧ exec i s' = .next t'
        ∧ (InputsReadable s ∨ IsLegal i = false → SameOutputs t t' ∧ t'.cmd = t.cmd)
        ∧ (¬(InputsReadable s ∨ IsLegal i = false) → SameRegisters s t ∧ SameRegisters s' t'))
    ∧ (∀ (i : Instr) (s : State), ∃ t t', exec i s = .next t ∧ exec i t = .next t' ∧ SameRegisters t t')
    ∧ ∀ (a : Offset) (s : State), ∃ t, memRead a s = .next t ∧ SameRegisters s t

/-! Reset. -/

/-- R41, R200: reset sets every register to its reset value, whatever it held; a second reset changes nothing. It clears no recorded
fault (R188, R189) and starts no operation. That it leaves the accesses still to come and what the host has read is the
model's framing (notes/assumptions/6.md). -/
def Obligations.ResetEffect : Prop :=
  ∀ (s : State) (rest : List HostEvent), s.pending = .reset :: rest →
    ∃ t, step s = .next t
      ∧ (∀ i : Fin 16, t.inChar[i] = none) ∧ t.inLen = none ∧ t.inPresent = 0 ∧ t.cmd = none ∧ t.status = 0
      ∧ t.errCause = 0 ∧ t.errSub = 0 ∧ t.errPos = none ∧ t.errByte = none ∧ t.errFlags = 0 ∧ BytesClear t ∧ FieldsClear t
      ∧ t.pending = rest ∧ t.faults = s.faults ∧ t.reads = s.reads ∧ t.applyReset = t

/-- R201: right after reset STATUS, ERR_CAUSE, ERR_SUB and ERR_FLAGS read 0, a read of any other output offset is a host-access
fault, and a legal operation started with no input written reports STRUCTURAL/MISSING and no model fault. -/
def Obligations.ObservableAfterReset : Prop :=
  (ReadGives State.reset 0x20 0 ∧ ReadGives State.reset 0x21 0 ∧ ReadGives State.reset 0x22 0 ∧ ReadGives State.reset 0x25 0)
    ∧ (∀ r : OutReg, r ≠ .status → r ≠ .errCause → r ≠ .errSub → r ≠ .errFlags →
        HostAccessFault State.reset (memRead r.offset State.reset))
    ∧ ∀ i : Instr, IsLegal i = true →
        ∃ t, exec i State.reset = .next t ∧ t.status = 2 ∧ t.errCause = 1 ∧ t.errSub = 1 ∧ t.faults = []

/-! Whole-machine rules. -/

/-- R41: the invariant of the registers holds right after reset. -/
def Obligations.ResetHoldsInvariant : Prop := Inv State.reset

/-- R27 to R38, R72, R101, R163, R164, R181, R184, R189: every step keeps the invariant of the registers. Its clauses that speak of
CMD (idle_iff, illegal_iff, and the fields by command in results) rest on the model's reading that CMD keeps its value on
UNWRITTEN_INPUT (notes/assumptions/3.md). -/
def Obligations.StepKeepsInvariant : Prop := ∀ s t : State, Inv s → step s = .next t → Inv t

/-- R188, R189: no step clears a recorded model fault, a reset included. -/
def Obligations.FaultsAreNeverCleared : Prop := ∀ s t : State, step s = .next t → s.faults <+: t.faults

/-- R188, R210: a run that has recorded a model fault is never a successful one, however it goes on. It rests on the spec's half of
Successful alone (notes/assumptions/17.md). -/
def Obligations.FaultedRunNeverSucceeds : Prop :=
  ∀ (k : Nat) (s t : State), s.faults ≠ [] → Host.Core.run core k s = .next t → ¬Successful t

/-- R27, R53, R206: the output registers change only when the host's next access writes CMD or the platform resets the block. -/
def Obligations.OutputsChangeOnlyAtCommandOrReset : Prop :=
  ∀ s : State, ∃ t, step s = .next t ∧
    ((∃ v rest, s.pending = .write 0x12 v :: rest) ∨ (∃ rest, s.pending = .reset :: rest) ∨ (SameOutputs s t ∧ t.cmd = s.cmd))

/-! The host. -/

/-- R74: the expansion of every host statement into bus accesses. PAYLOAD writes IN_PRESENT, IN_LEN = min(L, 255) and then IN_CHAR[i]
for i = 0 .. min(L,16)-1, in that order; READ reads each offset of its register in the order of R51. That READ of BYTES reads
the eight cells, and that one cell may be read alone, is the model's choice (notes/assumptions/9.md), and so is the code of a character that is no hex digit (notes/assumptions/7.md). -/
def Obligations.StatementsExpandAsWritten : Prop :=
  (∀ str : List Char, ∃ chars : List HostEvent,
      HostStmt.expand (.payload str) = [.write 0x11 1, .write 0x10 (BitVec.ofNat 8 (min str.length 255))] ++ chars
        ∧ chars.length = min str.length 16
        ∧ ∀ (i : Nat) (h : i < str.length), i < 16 → chars[i]? = some (.write (BitVec.ofNat 6 i) (charCode str[i])))
    ∧ HostStmt.expand .noPayload = [.write 0x11 0]
    ∧ HostStmt.expand (.exec .conv) = [.write 0x12 0] ∧ HostStmt.expand (.exec .devtype) = [.write 0x12 1]
    ∧ HostStmt.expand (.exec .time) = [.write 0x12 2] ∧ HostStmt.expand (.exec .state) = [.write 0x12 3]
    ∧ HostStmt.expand (.exec .soc) = [.write 0x12 4] ∧ HostStmt.expand (.exec .temp) = [.write 0x12 5]
    ∧ HostStmt.expand (.exec .record) = [.write 0x12 6]
    ∧ (∀ b : Byte, HostStmt.expand (.execb b) = [.write 0x12 b])
    ∧ HostStmt.expand (.read .status) = [.read 0x20] ∧ HostStmt.expand (.read .errCause) = [.read 0x21]
    ∧ HostStmt.expand (.read .errSub) = [.read 0x22] ∧ HostStmt.expand (.read .errPos) = [.read 0x23]
    ∧ HostStmt.expand (.read .errByte) = [.read 0x24] ∧ HostStmt.expand (.read .errFlags) = [.read 0x25]
    ∧ HostStmt.expand (.read .bytes)
        = [.read 0x28, .read 0x29, .read 0x2A, .read 0x2B, .read 0x2C, .read 0x2D, .read 0x2E, .read 0x2F]
    ∧ (∀ k : Fin 8, HostStmt.expand (.read (.byteAt k)) = [.read (BitVec.ofNat 6 (0x28 + k.val))])
    ∧ HostStmt.expand (.read .deviceType) = [.read 0x30] ∧ HostStmt.expand (.read .stateCode) = [.read 0x31]
    ∧ HostStmt.expand (.read .socX2) = [.read 0x32]
    ∧ HostStmt.expand (.read .tempX2) = [.read 0x34, .read 0x35]
    ∧ HostStmt.expand (.read .time) = [.read 0x38, .read 0x39, .read 0x3A, .read 0x3B, .read 0x3C]
    ∧ ∀ str : List Char, HostStmt.expand (.decode str) = HostStmt.expand (.payload str) ++ HostStmt.expand (.exec .record)

/-- R58, R74, R205, R207: the accesses of PAYLOAD for a string of L characters leave IN_PRESENT = 1, IN_LEN = min(L, 255) and the
first min(L, 16) characters in IN_CHAR; the cells beyond keep what they held; nothing else changes. The code of a character that
is no hex digit is the model's choice (notes/assumptions/7.md). -/
def Obligations.PayloadLoadsInputs : Prop :=
  ∀ (s : State) (str : List Char) (rest : List HostEvent), s.pending = HostStmt.expand (.payload str) ++ rest →
    ∃ t : State, Host.Core.run core (2 + min str.length 16) s = .next t
      ∧ t.inPresent = 1 ∧ t.inLen = some (BitVec.ofNat 8 (min str.length 255))
      ∧ (∀ i : Fin 16, t.inChar[i] = if h : i.val < str.length then some (charCode str[i.val]) else s.inChar[i])
      ∧ t.cmd = s.cmd ∧ SameOutputs s t ∧ t.pending = rest ∧ t.faults = s.faults ∧ t.reads = s.reads

/-- R89, R126, R160, R166: DECODE of the payload string built from any field values, from any state, recovers the field values; the
host publishes the record exactly when the state code and both values are in range. -/
def Obligations.DecodeStatementPublishesFields : Prop :=
  ∀ (s : State) (rest : List HostEvent) (dev : BitVec 4) (tm : BitVec 32) (st : BitVec 4) (rs rt b7 : Byte) (device : String),
    s.pending = HostStmt.expand (.decode (hexString (buildPayload dev tm st rs rt b7))) ++ rest →
    ∃ t : State, Host.Core.run core 19 s = .next t ∧ t.pending = rest ∧ t.faults = s.faults ∧ t.reads = s.reads
      ∧ t.deviceType = some dev ∧ t.time = some (tm.setWidth 36) ∧ t.stateCode = some st ∧ t.socX2 = some rs
      ∧ t.tempX2 = some (BitVec.ofInt 9 ((rt.toNat : Int) - 40))
      ∧ (if st.toNat ≤ 8 ∧ rs.toNat ≤ 200 ∧ rt.toNat ≤ 240 then
          ReportsOk t ∧ ∃ name : BatteryState, batteryState st = some name ∧
            publishRecord device t = some
              { device := device, time := tm.toNat, state := name.name, stateOfCharge := (rs.toNat : ℚ) / 2,
                temperature := (rt.toNat : ℚ) / 2 - 20 }
        else t.status = 2 ∧ publishRecord device t = none)

/-- R164, R166: the host publishes nothing unless STATUS = OK; after an OK RECORD it publishes the device string unchanged with the
time, the state's name, SOC_X2 / 2 and sval_9(TEMP_X2) / 2. -/
def Obligations.PublishedRecord : Prop :=
  (∀ (device : String) (s : State), s.status ≠ 1 → publishRecord device s = none)
    ∧ ∀ (device : String) (s : State) (cs : Chars), HoldsPayload s cs → specState cs ≤ 8 → (specByte cs 5).toNat ≤ 200 →
        (specByte cs 6).toNat ≤ 240 →
        ∃ t, exec .record s = .next t ∧ ∃ name : BatteryState, batteryState (BitVec.ofNat 4 (specState cs)) = some name ∧
          publishRecord device t = some
            { device := device, time := specTime cs, state := name.name, stateOfCharge := ((specByte cs 5).toNat : ℚ) / 2,
              temperature := (((specByte cs 6).toNat : ℚ) - 40) / 2 }

/-- R190: the kind the host reports for each cause; the kind decode_error is never produced. -/
def Obligations.HostErrorKinds : Prop :=
  hostErrorKind 1 = some .validationError ∧ hostErrorKind 2 = some .validationError ∧ hostErrorKind 3 = some .validationError
    ∧ hostErrorKind 5 = some .internalError ∧ hostErrorKind 4 = some .internalError
    ∧ ∀ code : BitVec 3, hostErrorKind code ≠ some .decodeError

/-- R167: each condition of the table gives its own entry, with the field, the value and the constraint of its row, and no other
condition does; the list holds no other entry. -/
def Obligations.ErrorDetailEntries : Prop :=
  (DetailField.name .payload = "payload" ∧ DetailField.name .state = "state"
      ∧ DetailField.name .stateOfCharge = "state_of_charge" ∧ DetailField.name .temperature = "temperature")
    ∧ ∀ s : State,
        let missing : ErrorDetail := ⟨some .payload, .absent, .required⟩
        let length : ErrorDetail := ⟨some .payload, .absent, .exactLength 16⟩
        let nonHex : ErrorDetail := ⟨some .payload, .position s.errPos s.errByte, .hexDigitsOnly⟩
        let state : ErrorDetail := ⟨some .state, .code s.stateCode, .validCodes 0 8⟩
        let soc : ErrorDetail :=
          ⟨some .stateOfCharge, .number (s.socX2.map fun v => (v.toNat : ℚ) / 2), .allowedRange 0 100⟩
        let temp : ErrorDetail :=
          ⟨some .temperature, .number (s.tempX2.map fun v => (v.toInt : ℚ) / 2), .allowedRange (-20) 100⟩
        let command : ErrorDetail := ⟨none, .command s.cmd, .legalCommand⟩
        (missing ∈ errorDetails s ↔ s.errSub = 1)
          ∧ (length ∈ errorDetails s ↔ s.errSub = 2)
          ∧ (nonHex ∈ errorDetails s ↔ s.errSub = 3)
          ∧ (state ∈ errorDetails s ↔ s.errFlags.getLsbD 0 = true)
          ∧ (soc ∈ errorDetails s ↔ s.errFlags.getLsbD 1 = true)
          ∧ (temp ∈ errorDetails s ↔ s.errFlags.getLsbD 2 = true)
          ∧ (command ∈ errorDetails s ↔ s.errCause = 5)
          ∧ ∀ d ∈ errorDetails s, d ∈ [missing, length, nonHex, state, soc, temp, command]

/-- R162, R167: after a legal command on a well-formed payload string the host's entries are one for each set bit of ERR_FLAGS, and
each carries a value that lies outside the valid codes or the allowed range it names. -/
def Obligations.PayloadEntriesNameViolations : Prop :=
  ∀ (i : Instr) (s : State) (cs : Chars), IsLegal i = true → HoldsPayload s cs →
    ∃ t, exec i s = .next t
      ∧ (∀ d ∈ errorDetails t, ValueViolates d)
      ∧ (errorDetails t).length
          = (t.errFlags.getLsbD 0).toNat + (t.errFlags.getLsbD 1).toNat + (t.errFlags.getLsbD 2).toNat

/-- R165: with the default policy an empty device is no error and the request runs; with `reject` it is a validation error and no
operation starts. -/
def Obligations.EmptyDevicePolicy : Prop :=
  Config.hostDeviceEmptyPolicy = .accept
    ∧ (∀ r : Request, serveRequest .accept r = .inr [(match r.payload with | some s => .payload s | none => .noPayload), .exec .record])
    ∧ (∀ (r : Request), r.device = "" → serveRequest .reject r = .inl (.error .validationError []))
    ∧ ∀ (r : Request), r.device ≠ "" → serveRequest .reject r = serveRequest .accept r
end

