-- ==== Sys2Proof/Laws/State.lean ====
section
/-! SUPPORT. One lemma per field per named update of State, each true by rfl, so that no later proof unfolds a record update. -/

namespace Sys2Proof.Machine

section
variable (s : State)

/-! setInChar -/
@[simp] theorem State.setInChar_inChar (i : Fin 16) (v : Byte) : (s.setInChar i v).inChar = s.inChar.set i (some v) := rfl
@[simp] theorem State.setInChar_inLen (i : Fin 16) (v : Byte) : (s.setInChar i v).inLen = s.inLen := rfl
@[simp] theorem State.setInChar_inPresent (i : Fin 16) (v : Byte) : (s.setInChar i v).inPresent = s.inPresent := rfl
@[simp] theorem State.setInChar_cmd (i : Fin 16) (v : Byte) : (s.setInChar i v).cmd = s.cmd := rfl
@[simp] theorem State.setInChar_status (i : Fin 16) (v : Byte) : (s.setInChar i v).status = s.status := rfl
@[simp] theorem State.setInChar_errCause (i : Fin 16) (v : Byte) : (s.setInChar i v).errCause = s.errCause := rfl
@[simp] theorem State.setInChar_errSub (i : Fin 16) (v : Byte) : (s.setInChar i v).errSub = s.errSub := rfl
@[simp] theorem State.setInChar_errPos (i : Fin 16) (v : Byte) : (s.setInChar i v).errPos = s.errPos := rfl
@[simp] theorem State.setInChar_errByte (i : Fin 16) (v : Byte) : (s.setInChar i v).errByte = s.errByte := rfl
@[simp] theorem State.setInChar_errFlags (i : Fin 16) (v : Byte) : (s.setInChar i v).errFlags = s.errFlags := rfl
@[simp] theorem State.setInChar_bytes (i : Fin 16) (v : Byte) : (s.setInChar i v).bytes = s.bytes := rfl
@[simp] theorem State.setInChar_deviceType (i : Fin 16) (v : Byte) : (s.setInChar i v).deviceType = s.deviceType := rfl
@[simp] theorem State.setInChar_time (i : Fin 16) (v : Byte) : (s.setInChar i v).time = s.time := rfl
@[simp] theorem State.setInChar_stateCode (i : Fin 16) (v : Byte) : (s.setInChar i v).stateCode = s.stateCode := rfl
@[simp] theorem State.setInChar_socX2 (i : Fin 16) (v : Byte) : (s.setInChar i v).socX2 = s.socX2 := rfl
@[simp] theorem State.setInChar_tempX2 (i : Fin 16) (v : Byte) : (s.setInChar i v).tempX2 = s.tempX2 := rfl
@[simp] theorem State.setInChar_pending (i : Fin 16) (v : Byte) : (s.setInChar i v).pending = s.pending := rfl
@[simp] theorem State.setInChar_faults (i : Fin 16) (v : Byte) : (s.setInChar i v).faults = s.faults := rfl
@[simp] theorem State.setInChar_reads (i : Fin 16) (v : Byte) : (s.setInChar i v).reads = s.reads := rfl

/-! setInLen -/
@[simp] theorem State.setInLen_inChar (v : Byte) : (s.setInLen v).inChar = s.inChar := rfl
@[simp] theorem State.setInLen_inLen (v : Byte) : (s.setInLen v).inLen = some v := rfl
@[simp] theorem State.setInLen_inPresent (v : Byte) : (s.setInLen v).inPresent = s.inPresent := rfl
@[simp] theorem State.setInLen_cmd (v : Byte) : (s.setInLen v).cmd = s.cmd := rfl
@[simp] theorem State.setInLen_status (v : Byte) : (s.setInLen v).status = s.status := rfl
@[simp] theorem State.setInLen_errCause (v : Byte) : (s.setInLen v).errCause = s.errCause := rfl
@[simp] theorem State.setInLen_errSub (v : Byte) : (s.setInLen v).errSub = s.errSub := rfl
@[simp] theorem State.setInLen_errPos (v : Byte) : (s.setInLen v).errPos = s.errPos := rfl
@[simp] theorem State.setInLen_errByte (v : Byte) : (s.setInLen v).errByte = s.errByte := rfl
@[simp] theorem State.setInLen_errFlags (v : Byte) : (s.setInLen v).errFlags = s.errFlags := rfl
@[simp] theorem State.setInLen_bytes (v : Byte) : (s.setInLen v).bytes = s.bytes := rfl
@[simp] theorem State.setInLen_deviceType (v : Byte) : (s.setInLen v).deviceType = s.deviceType := rfl
@[simp] theorem State.setInLen_time (v : Byte) : (s.setInLen v).time = s.time := rfl
@[simp] theorem State.setInLen_stateCode (v : Byte) : (s.setInLen v).stateCode = s.stateCode := rfl
@[simp] theorem State.setInLen_socX2 (v : Byte) : (s.setInLen v).socX2 = s.socX2 := rfl
@[simp] theorem State.setInLen_tempX2 (v : Byte) : (s.setInLen v).tempX2 = s.tempX2 := rfl
@[simp] theorem State.setInLen_pending (v : Byte) : (s.setInLen v).pending = s.pending := rfl
@[simp] theorem State.setInLen_faults (v : Byte) : (s.setInLen v).faults = s.faults := rfl
@[simp] theorem State.setInLen_reads (v : Byte) : (s.setInLen v).reads = s.reads := rfl

/-! setInPresent -/
@[simp] theorem State.setInPresent_inChar (v : BitVec 1) : (s.setInPresent v).inChar = s.inChar := rfl
@[simp] theorem State.setInPresent_inLen (v : BitVec 1) : (s.setInPresent v).inLen = s.inLen := rfl
@[simp] theorem State.setInPresent_inPresent (v : BitVec 1) : (s.setInPresent v).inPresent = v := rfl
@[simp] theorem State.setInPresent_cmd (v : BitVec 1) : (s.setInPresent v).cmd = s.cmd := rfl
@[simp] theorem State.setInPresent_status (v : BitVec 1) : (s.setInPresent v).status = s.status := rfl
@[simp] theorem State.setInPresent_errCause (v : BitVec 1) : (s.setInPresent v).errCause = s.errCause := rfl
@[simp] theorem State.setInPresent_errSub (v : BitVec 1) : (s.setInPresent v).errSub = s.errSub := rfl
@[simp] theorem State.setInPresent_errPos (v : BitVec 1) : (s.setInPresent v).errPos = s.errPos := rfl
@[simp] theorem State.setInPresent_errByte (v : BitVec 1) : (s.setInPresent v).errByte = s.errByte := rfl
@[simp] theorem State.setInPresent_errFlags (v : BitVec 1) : (s.setInPresent v).errFlags = s.errFlags := rfl
@[simp] theorem State.setInPresent_bytes (v : BitVec 1) : (s.setInPresent v).bytes = s.bytes := rfl
@[simp] theorem State.setInPresent_deviceType (v : BitVec 1) : (s.setInPresent v).deviceType = s.deviceType := rfl
@[simp] theorem State.setInPresent_time (v : BitVec 1) : (s.setInPresent v).time = s.time := rfl
@[simp] theorem State.setInPresent_stateCode (v : BitVec 1) : (s.setInPresent v).stateCode = s.stateCode := rfl
@[simp] theorem State.setInPresent_socX2 (v : BitVec 1) : (s.setInPresent v).socX2 = s.socX2 := rfl
@[simp] theorem State.setInPresent_tempX2 (v : BitVec 1) : (s.setInPresent v).tempX2 = s.tempX2 := rfl
@[simp] theorem State.setInPresent_pending (v : BitVec 1) : (s.setInPresent v).pending = s.pending := rfl
@[simp] theorem State.setInPresent_faults (v : BitVec 1) : (s.setInPresent v).faults = s.faults := rfl
@[simp] theorem State.setInPresent_reads (v : BitVec 1) : (s.setInPresent v).reads = s.reads := rfl

/-! setCmd -/
@[simp] theorem State.setCmd_inChar (v : Byte) : (s.setCmd v).inChar = s.inChar := rfl
@[simp] theorem State.setCmd_inLen (v : Byte) : (s.setCmd v).inLen = s.inLen := rfl
@[simp] theorem State.setCmd_inPresent (v : Byte) : (s.setCmd v).inPresent = s.inPresent := rfl
@[simp] theorem State.setCmd_cmd (v : Byte) : (s.setCmd v).cmd = some v := rfl
@[simp] theorem State.setCmd_status (v : Byte) : (s.setCmd v).status = s.status := rfl
@[simp] theorem State.setCmd_errCause (v : Byte) : (s.setCmd v).errCause = s.errCause := rfl
@[simp] theorem State.setCmd_errSub (v : Byte) : (s.setCmd v).errSub = s.errSub := rfl
@[simp] theorem State.setCmd_errPos (v : Byte) : (s.setCmd v).errPos = s.errPos := rfl
@[simp] theorem State.setCmd_errByte (v : Byte) : (s.setCmd v).errByte = s.errByte := rfl
@[simp] theorem State.setCmd_errFlags (v : Byte) : (s.setCmd v).errFlags = s.errFlags := rfl
@[simp] theorem State.setCmd_bytes (v : Byte) : (s.setCmd v).bytes = s.bytes := rfl
@[simp] theorem State.setCmd_deviceType (v : Byte) : (s.setCmd v).deviceType = s.deviceType := rfl
@[simp] theorem State.setCmd_time (v : Byte) : (s.setCmd v).time = s.time := rfl
@[simp] theorem State.setCmd_stateCode (v : Byte) : (s.setCmd v).stateCode = s.stateCode := rfl
@[simp] theorem State.setCmd_socX2 (v : Byte) : (s.setCmd v).socX2 = s.socX2 := rfl
@[simp] theorem State.setCmd_tempX2 (v : Byte) : (s.setCmd v).tempX2 = s.tempX2 := rfl
@[simp] theorem State.setCmd_pending (v : Byte) : (s.setCmd v).pending = s.pending := rfl
@[simp] theorem State.setCmd_faults (v : Byte) : (s.setCmd v).faults = s.faults := rfl
@[simp] theorem State.setCmd_reads (v : Byte) : (s.setCmd v).reads = s.reads := rfl

/-! setBytes -/
@[simp] theorem State.setBytes_inChar (b : Payload) : (s.setBytes b).inChar = s.inChar := rfl
@[simp] theorem State.setBytes_inLen (b : Payload) : (s.setBytes b).inLen = s.inLen := rfl
@[simp] theorem State.setBytes_inPresent (b : Payload) : (s.setBytes b).inPresent = s.inPresent := rfl
@[simp] theorem State.setBytes_cmd (b : Payload) : (s.setBytes b).cmd = s.cmd := rfl
@[simp] theorem State.setBytes_status (b : Payload) : (s.setBytes b).status = s.status := rfl
@[simp] theorem State.setBytes_errCause (b : Payload) : (s.setBytes b).errCause = s.errCause := rfl
@[simp] theorem State.setBytes_errSub (b : Payload) : (s.setBytes b).errSub = s.errSub := rfl
@[simp] theorem State.setBytes_errPos (b : Payload) : (s.setBytes b).errPos = s.errPos := rfl
@[simp] theorem State.setBytes_errByte (b : Payload) : (s.setBytes b).errByte = s.errByte := rfl
@[simp] theorem State.setBytes_errFlags (b : Payload) : (s.setBytes b).errFlags = s.errFlags := rfl
@[simp] theorem State.setBytes_bytes (b : Payload) : (s.setBytes b).bytes = Vector.ofFn fun k => some b[k] := rfl
@[simp] theorem State.setBytes_deviceType (b : Payload) : (s.setBytes b).deviceType = s.deviceType := rfl
@[simp] theorem State.setBytes_time (b : Payload) : (s.setBytes b).time = s.time := rfl
@[simp] theorem State.setBytes_stateCode (b : Payload) : (s.setBytes b).stateCode = s.stateCode := rfl
@[simp] theorem State.setBytes_socX2 (b : Payload) : (s.setBytes b).socX2 = s.socX2 := rfl
@[simp] theorem State.setBytes_tempX2 (b : Payload) : (s.setBytes b).tempX2 = s.tempX2 := rfl
@[simp] theorem State.setBytes_pending (b : Payload) : (s.setBytes b).pending = s.pending := rfl
@[simp] theorem State.setBytes_faults (b : Payload) : (s.setBytes b).faults = s.faults := rfl
@[simp] theorem State.setBytes_reads (b : Payload) : (s.setBytes b).reads = s.reads := rfl

/-! extractDevtype -/
@[simp] theorem State.extractDevtype_inChar (b : Payload) : (s.extractDevtype b).inChar = s.inChar := rfl
@[simp] theorem State.extractDevtype_inLen (b : Payload) : (s.extractDevtype b).inLen = s.inLen := rfl
@[simp] theorem State.extractDevtype_inPresent (b : Payload) : (s.extractDevtype b).inPresent = s.inPresent := rfl
@[simp] theorem State.extractDevtype_cmd (b : Payload) : (s.extractDevtype b).cmd = s.cmd := rfl
@[simp] theorem State.extractDevtype_status (b : Payload) : (s.extractDevtype b).status = s.status := rfl
@[simp] theorem State.extractDevtype_errCause (b : Payload) : (s.extractDevtype b).errCause = s.errCause := rfl
@[simp] theorem State.extractDevtype_errSub (b : Payload) : (s.extractDevtype b).errSub = s.errSub := rfl
@[simp] theorem State.extractDevtype_errPos (b : Payload) : (s.extractDevtype b).errPos = s.errPos := rfl
@[simp] theorem State.extractDevtype_errByte (b : Payload) : (s.extractDevtype b).errByte = s.errByte := rfl
@[simp] theorem State.extractDevtype_errFlags (b : Payload) : (s.extractDevtype b).errFlags = s.errFlags := rfl
@[simp] theorem State.extractDevtype_bytes (b : Payload) : (s.extractDevtype b).bytes = s.bytes := rfl
@[simp] theorem State.extractDevtype_deviceType (b : Payload) : (s.extractDevtype b).deviceType = some (deviceTypeOf b) := rfl
@[simp] theorem State.extractDevtype_time (b : Payload) : (s.extractDevtype b).time = s.time := rfl
@[simp] theorem State.extractDevtype_stateCode (b : Payload) : (s.extractDevtype b).stateCode = s.stateCode := rfl
@[simp] theorem State.extractDevtype_socX2 (b : Payload) : (s.extractDevtype b).socX2 = s.socX2 := rfl
@[simp] theorem State.extractDevtype_tempX2 (b : Payload) : (s.extractDevtype b).tempX2 = s.tempX2 := rfl
@[simp] theorem State.extractDevtype_pending (b : Payload) : (s.extractDevtype b).pending = s.pending := rfl
@[simp] theorem State.extractDevtype_faults (b : Payload) : (s.extractDevtype b).faults = s.faults := rfl
@[simp] theorem State.extractDevtype_reads (b : Payload) : (s.extractDevtype b).reads = s.reads := rfl

/-! extractTime -/
@[simp] theorem State.extractTime_inChar (b : Payload) : (s.extractTime b).inChar = s.inChar := rfl
@[simp] theorem State.extractTime_inLen (b : Payload) : (s.extractTime b).inLen = s.inLen := rfl
@[simp] theorem State.extractTime_inPresent (b : Payload) : (s.extractTime b).inPresent = s.inPresent := rfl
@[simp] theorem State.extractTime_cmd (b : Payload) : (s.extractTime b).cmd = s.cmd := rfl
@[simp] theorem State.extractTime_status (b : Payload) : (s.extractTime b).status = s.status := rfl
@[simp] theorem State.extractTime_errCause (b : Payload) : (s.extractTime b).errCause = s.errCause := rfl
@[simp] theorem State.extractTime_errSub (b : Payload) : (s.extractTime b).errSub = s.errSub := rfl
@[simp] theorem State.extractTime_errPos (b : Payload) : (s.extractTime b).errPos = s.errPos := rfl
@[simp] theorem State.extractTime_errByte (b : Payload) : (s.extractTime b).errByte = s.errByte := rfl
@[simp] theorem State.extractTime_errFlags (b : Payload) : (s.extractTime b).errFlags = s.errFlags := rfl
@[simp] theorem State.extractTime_bytes (b : Payload) : (s.extractTime b).bytes = s.bytes := rfl
@[simp] theorem State.extractTime_deviceType (b : Payload) : (s.extractTime b).deviceType = s.deviceType := rfl
@[simp] theorem State.extractTime_time (b : Payload) : (s.extractTime b).time = some ((timeOf b).setWidth 36) := rfl
@[simp] theorem State.extractTime_stateCode (b : Payload) : (s.extractTime b).stateCode = s.stateCode := rfl
@[simp] theorem State.extractTime_socX2 (b : Payload) : (s.extractTime b).socX2 = s.socX2 := rfl
@[simp] theorem State.extractTime_tempX2 (b : Payload) : (s.extractTime b).tempX2 = s.tempX2 := rfl
@[simp] theorem State.extractTime_pending (b : Payload) : (s.extractTime b).pending = s.pending := rfl
@[simp] theorem State.extractTime_faults (b : Payload) : (s.extractTime b).faults = s.faults := rfl
@[simp] theorem State.extractTime_reads (b : Payload) : (s.extractTime b).reads = s.reads := rfl

/-! extractState -/
@[simp] theorem State.extractState_inChar (b : Payload) : (s.extractState b).inChar = s.inChar := rfl
@[simp] theorem State.extractState_inLen (b : Payload) : (s.extractState b).inLen = s.inLen := rfl
@[simp] theorem State.extractState_inPresent (b : Payload) : (s.extractState b).inPresent = s.inPresent := rfl
@[simp] theorem State.extractState_cmd (b : Payload) : (s.extractState b).cmd = s.cmd := rfl
@[simp] theorem State.extractState_status (b : Payload) : (s.extractState b).status = s.status := rfl
@[simp] theorem State.extractState_errCause (b : Payload) : (s.extractState b).errCause = s.errCause := rfl
@[simp] theorem State.extractState_errSub (b : Payload) : (s.extractState b).errSub = s.errSub := rfl
@[simp] theorem State.extractState_errPos (b : Payload) : (s.extractState b).errPos = s.errPos := rfl
@[simp] theorem State.extractState_errByte (b : Payload) : (s.extractState b).errByte = s.errByte := rfl
@[simp] theorem State.extractState_errFlags (b : Payload) : (s.extractState b).errFlags = s.errFlags := rfl
@[simp] theorem State.extractState_bytes (b : Payload) : (s.extractState b).bytes = s.bytes := rfl
@[simp] theorem State.extractState_deviceType (b : Payload) : (s.extractState b).deviceType = s.deviceType := rfl
@[simp] theorem State.extractState_time (b : Payload) : (s.extractState b).time = s.time := rfl
@[simp] theorem State.extractState_stateCode (b : Payload) : (s.extractState b).stateCode = some (stateCodeOf b) := rfl
@[simp] theorem State.extractState_socX2 (b : Payload) : (s.extractState b).socX2 = s.socX2 := rfl
@[simp] theorem State.extractState_tempX2 (b : Payload) : (s.extractState b).tempX2 = s.tempX2 := rfl
@[simp] theorem State.extractState_pending (b : Payload) : (s.extractState b).pending = s.pending := rfl
@[simp] theorem State.extractState_faults (b : Payload) : (s.extractState b).faults = s.faults := rfl
@[simp] theorem State.extractState_reads (b : Payload) : (s.extractState b).reads = s.reads := rfl

/-! extractSoc -/
@[simp] theorem State.extractSoc_inChar (b : Payload) : (s.extractSoc b).inChar = s.inChar := rfl
@[simp] theorem State.extractSoc_inLen (b : Payload) : (s.extractSoc b).inLen = s.inLen := rfl
@[simp] theorem State.extractSoc_inPresent (b : Payload) : (s.extractSoc b).inPresent = s.inPresent := rfl
@[simp] theorem State.extractSoc_cmd (b : Payload) : (s.extractSoc b).cmd = s.cmd := rfl
@[simp] theorem State.extractSoc_status (b : Payload) : (s.extractSoc b).status = s.status := rfl
@[simp] theorem State.extractSoc_errCause (b : Payload) : (s.extractSoc b).errCause = s.errCause := rfl
@[simp] theorem State.extractSoc_errSub (b : Payload) : (s.extractSoc b).errSub = s.errSub := rfl
@[simp] theorem State.extractSoc_errPos (b : Payload) : (s.extractSoc b).errPos = s.errPos := rfl
@[simp] theorem State.extractSoc_errByte (b : Payload) : (s.extractSoc b).errByte = s.errByte := rfl
@[simp] theorem State.extractSoc_errFlags (b : Payload) : (s.extractSoc b).errFlags = s.errFlags := rfl
@[simp] theorem State.extractSoc_bytes (b : Payload) : (s.extractSoc b).bytes = s.bytes := rfl
@[simp] theorem State.extractSoc_deviceType (b : Payload) : (s.extractSoc b).deviceType = s.deviceType := rfl
@[simp] theorem State.extractSoc_time (b : Payload) : (s.extractSoc b).time = s.time := rfl
@[simp] theorem State.extractSoc_stateCode (b : Payload) : (s.extractSoc b).stateCode = s.stateCode := rfl
@[simp] theorem State.extractSoc_socX2 (b : Payload) : (s.extractSoc b).socX2 = some (socOf b) := rfl
@[simp] theorem State.extractSoc_tempX2 (b : Payload) : (s.extractSoc b).tempX2 = s.tempX2 := rfl
@[simp] theorem State.extractSoc_pending (b : Payload) : (s.extractSoc b).pending = s.pending := rfl
@[simp] theorem State.extractSoc_faults (b : Payload) : (s.extractSoc b).faults = s.faults := rfl
@[simp] theorem State.extractSoc_reads (b : Payload) : (s.extractSoc b).reads = s.reads := rfl

/-! extractTemp -/
@[simp] theorem State.extractTemp_inChar (b : Payload) : (s.extractTemp b).inChar = s.inChar := rfl
@[simp] theorem State.extractTemp_inLen (b : Payload) : (s.extractTemp b).inLen = s.inLen := rfl
@[simp] theorem State.extractTemp_inPresent (b : Payload) : (s.extractTemp b).inPresent = s.inPresent := rfl
@[simp] theorem State.extractTemp_cmd (b : Payload) : (s.extractTemp b).cmd = s.cmd := rfl
@[simp] theorem State.extractTemp_status (b : Payload) : (s.extractTemp b).status = s.status := rfl
@[simp] theorem State.extractTemp_errCause (b : Payload) : (s.extractTemp b).errCause = s.errCause := rfl
@[simp] theorem State.extractTemp_errSub (b : Payload) : (s.extractTemp b).errSub = s.errSub := rfl
@[simp] theorem State.extractTemp_errPos (b : Payload) : (s.extractTemp b).errPos = s.errPos := rfl
@[simp] theorem State.extractTemp_errByte (b : Payload) : (s.extractTemp b).errByte = s.errByte := rfl
@[simp] theorem State.extractTemp_errFlags (b : Payload) : (s.extractTemp b).errFlags = s.errFlags := rfl
@[simp] theorem State.extractTemp_bytes (b : Payload) : (s.extractTemp b).bytes = s.bytes := rfl
@[simp] theorem State.extractTemp_deviceType (b : Payload) : (s.extractTemp b).deviceType = s.deviceType := rfl
@[simp] theorem State.extractTemp_time (b : Payload) : (s.extractTemp b).time = s.time := rfl
@[simp] theorem State.extractTemp_stateCode (b : Payload) : (s.extractTemp b).stateCode = s.stateCode := rfl
@[simp] theorem State.extractTemp_socX2 (b : Payload) : (s.extractTemp b).socX2 = s.socX2 := rfl
@[simp] theorem State.extractTemp_tempX2 (b : Payload) : (s.extractTemp b).tempX2 = some (tempX2Of (rawTempOf b)) := rfl
@[simp] theorem State.extractTemp_pending (b : Payload) : (s.extractTemp b).pending = s.pending := rfl
@[simp] theorem State.extractTemp_faults (b : Payload) : (s.extractTemp b).faults = s.faults := rfl
@[simp] theorem State.extractTemp_reads (b : Payload) : (s.extractTemp b).reads = s.reads := rfl

/-! prologue -/
@[simp] theorem State.prologue_inChar : s.prologue.inChar = s.inChar := rfl
@[simp] theorem State.prologue_inLen : s.prologue.inLen = s.inLen := rfl
@[simp] theorem State.prologue_inPresent : s.prologue.inPresent = s.inPresent := rfl
@[simp] theorem State.prologue_cmd : s.prologue.cmd = s.cmd := rfl
@[simp] theorem State.prologue_status : s.prologue.status = s.status := rfl
@[simp] theorem State.prologue_errCause : s.prologue.errCause = 0 := rfl
@[simp] theorem State.prologue_errSub : s.prologue.errSub = 0 := rfl
@[simp] theorem State.prologue_errPos : s.prologue.errPos = none := rfl
@[simp] theorem State.prologue_errByte : s.prologue.errByte = none := rfl
@[simp] theorem State.prologue_errFlags : s.prologue.errFlags = 0 := rfl
@[simp] theorem State.prologue_bytes : s.prologue.bytes = Vector.replicate 8 none := rfl
@[simp] theorem State.prologue_deviceType : s.prologue.deviceType = none := rfl
@[simp] theorem State.prologue_time : s.prologue.time = none := rfl
@[simp] theorem State.prologue_stateCode : s.prologue.stateCode = none := rfl
@[simp] theorem State.prologue_socX2 : s.prologue.socX2 = none := rfl
@[simp] theorem State.prologue_tempX2 : s.prologue.tempX2 = none := rfl
@[simp] theorem State.prologue_pending : s.prologue.pending = s.pending := rfl
@[simp] theorem State.prologue_faults : s.prologue.faults = s.faults := rfl
@[simp] theorem State.prologue_reads : s.prologue.reads = s.reads := rfl

/-! raise -/
@[simp] theorem State.raise_inChar (c : ErrCause) (u : ErrSub) (p : Option (BitVec 4)) (f : BitVec 3) : (s.raise c u p f).inChar = s.inChar := rfl
@[simp] theorem State.raise_inLen (c : ErrCause) (u : ErrSub) (p : Option (BitVec 4)) (f : BitVec 3) : (s.raise c u p f).inLen = s.inLen := rfl
@[simp] theorem State.raise_inPresent (c : ErrCause) (u : ErrSub) (p : Option (BitVec 4)) (f : BitVec 3) : (s.raise c u p f).inPresent = s.inPresent := rfl
@[simp] theorem State.raise_cmd (c : ErrCause) (u : ErrSub) (p : Option (BitVec 4)) (f : BitVec 3) : (s.raise c u p f).cmd = s.cmd := rfl
@[simp] theorem State.raise_status (c : ErrCause) (u : ErrSub) (p : Option (BitVec 4)) (f : BitVec 3) : (s.raise c u p f).status = 2 := rfl
@[simp] theorem State.raise_errCause (c : ErrCause) (u : ErrSub) (p : Option (BitVec 4)) (f : BitVec 3) : (s.raise c u p f).errCause = c.code := rfl
@[simp] theorem State.raise_errSub (c : ErrCause) (u : ErrSub) (p : Option (BitVec 4)) (f : BitVec 3) : (s.raise c u p f).errSub = u.code := rfl
@[simp] theorem State.raise_errPos (c : ErrCause) (u : ErrSub) (p : Option (BitVec 4)) (f : BitVec 3) : (s.raise c u p f).errPos = p.or s.errPos := rfl
@[simp] theorem State.raise_errByte (c : ErrCause) (u : ErrSub) (p : Option (BitVec 4)) (f : BitVec 3) : (s.raise c u p f).errByte = (p.map errByteOf).or s.errByte := rfl
@[simp] theorem State.raise_errFlags (c : ErrCause) (u : ErrSub) (p : Option (BitVec 4)) (f : BitVec 3) : (s.raise c u p f).errFlags = f := rfl
@[simp] theorem State.raise_bytes (c : ErrCause) (u : ErrSub) (p : Option (BitVec 4)) (f : BitVec 3) : (s.raise c u p f).bytes = s.bytes := rfl
@[simp] theorem State.raise_deviceType (c : ErrCause) (u : ErrSub) (p : Option (BitVec 4)) (f : BitVec 3) : (s.raise c u p f).deviceType = s.deviceType := rfl
@[simp] theorem State.raise_time (c : ErrCause) (u : ErrSub) (p : Option (BitVec 4)) (f : BitVec 3) : (s.raise c u p f).time = s.time := rfl
@[simp] theorem State.raise_stateCode (c : ErrCause) (u : ErrSub) (p : Option (BitVec 4)) (f : BitVec 3) : (s.raise c u p f).stateCode = s.stateCode := rfl
@[simp] theorem State.raise_socX2 (c : ErrCause) (u : ErrSub) (p : Option (BitVec 4)) (f : BitVec 3) : (s.raise c u p f).socX2 = s.socX2 := rfl
@[simp] theorem State.raise_tempX2 (c : ErrCause) (u : ErrSub) (p : Option (BitVec 4)) (f : BitVec 3) : (s.raise c u p f).tempX2 = s.tempX2 := rfl
@[simp] theorem State.raise_pending (c : ErrCause) (u : ErrSub) (p : Option (BitVec 4)) (f : BitVec 3) : (s.raise c u p f).pending = s.pending := rfl
@[simp] theorem State.raise_faults (c : ErrCause) (u : ErrSub) (p : Option (BitVec 4)) (f : BitVec 3) : (s.raise c u p f).faults = s.faults := rfl
@[simp] theorem State.raise_reads (c : ErrCause) (u : ErrSub) (p : Option (BitVec 4)) (f : BitVec 3) : (s.raise c u p f).reads = s.reads := rfl

/-! finishOk -/
@[simp] theorem State.finishOk_inChar : s.finishOk.inChar = s.inChar := rfl
@[simp] theorem State.finishOk_inLen : s.finishOk.inLen = s.inLen := rfl
@[simp] theorem State.finishOk_inPresent : s.finishOk.inPresent = s.inPresent := rfl
@[simp] theorem State.finishOk_cmd : s.finishOk.cmd = s.cmd := rfl
@[simp] theorem State.finishOk_status : s.finishOk.status = 1 := rfl
@[simp] theorem State.finishOk_errCause : s.finishOk.errCause = s.errCause := rfl
@[simp] theorem State.finishOk_errSub : s.finishOk.errSub = s.errSub := rfl
@[simp] theorem State.finishOk_errPos : s.finishOk.errPos = s.errPos := rfl
@[simp] theorem State.finishOk_errByte : s.finishOk.errByte = s.errByte := rfl
@[simp] theorem State.finishOk_errFlags : s.finishOk.errFlags = s.errFlags := rfl
@[simp] theorem State.finishOk_bytes : s.finishOk.bytes = s.bytes := rfl
@[simp] theorem State.finishOk_deviceType : s.finishOk.deviceType = s.deviceType := rfl
@[simp] theorem State.finishOk_time : s.finishOk.time = s.time := rfl
@[simp] theorem State.finishOk_stateCode : s.finishOk.stateCode = s.stateCode := rfl
@[simp] theorem State.finishOk_socX2 : s.finishOk.socX2 = s.socX2 := rfl
@[simp] theorem State.finishOk_tempX2 : s.finishOk.tempX2 = s.tempX2 := rfl
@[simp] theorem State.finishOk_pending : s.finishOk.pending = s.pending := rfl
@[simp] theorem State.finishOk_faults : s.finishOk.faults = s.faults := rfl
@[simp] theorem State.finishOk_reads : s.finishOk.reads = s.reads := rfl

/-! recordFault -/
@[simp] theorem State.recordFault_inChar (f : Fault) : (s.recordFault f).inChar = s.inChar := rfl
@[simp] theorem State.recordFault_inLen (f : Fault) : (s.recordFault f).inLen = s.inLen := rfl
@[simp] theorem State.recordFault_inPresent (f : Fault) : (s.recordFault f).inPresent = s.inPresent := rfl
@[simp] theorem State.recordFault_cmd (f : Fault) : (s.recordFault f).cmd = s.cmd := rfl
@[simp] theorem State.recordFault_status (f : Fault) : (s.recordFault f).status = s.status := rfl
@[simp] theorem State.recordFault_errCause (f : Fault) : (s.recordFault f).errCause = s.errCause := rfl
@[simp] theorem State.recordFault_errSub (f : Fault) : (s.recordFault f).errSub = s.errSub := rfl
@[simp] theorem State.recordFault_errPos (f : Fault) : (s.recordFault f).errPos = s.errPos := rfl
@[simp] theorem State.recordFault_errByte (f : Fault) : (s.recordFault f).errByte = s.errByte := rfl
@[simp] theorem State.recordFault_errFlags (f : Fault) : (s.recordFault f).errFlags = s.errFlags := rfl
@[simp] theorem State.recordFault_bytes (f : Fault) : (s.recordFault f).bytes = s.bytes := rfl
@[simp] theorem State.recordFault_deviceType (f : Fault) : (s.recordFault f).deviceType = s.deviceType := rfl
@[simp] theorem State.recordFault_time (f : Fault) : (s.recordFault f).time = s.time := rfl
@[simp] theorem State.recordFault_stateCode (f : Fault) : (s.recordFault f).stateCode = s.stateCode := rfl
@[simp] theorem State.recordFault_socX2 (f : Fault) : (s.recordFault f).socX2 = s.socX2 := rfl
@[simp] theorem State.recordFault_tempX2 (f : Fault) : (s.recordFault f).tempX2 = s.tempX2 := rfl
@[simp] theorem State.recordFault_pending (f : Fault) : (s.recordFault f).pending = s.pending := rfl
@[simp] theorem State.recordFault_faults (f : Fault) : (s.recordFault f).faults = s.faults ++ [f] := rfl
@[simp] theorem State.recordFault_reads (f : Fault) : (s.recordFault f).reads = s.reads := rfl

/-! recordRead -/
@[simp] theorem State.recordRead_inChar (a : Offset) (v : Byte) : (s.recordRead a v).inChar = s.inChar := rfl
@[simp] theorem State.recordRead_inLen (a : Offset) (v : Byte) : (s.recordRead a v).inLen = s.inLen := rfl
@[simp] theorem State.recordRead_inPresent (a : Offset) (v : Byte) : (s.recordRead a v).inPresent = s.inPresent := rfl
@[simp] theorem State.recordRead_cmd (a : Offset) (v : Byte) : (s.recordRead a v).cmd = s.cmd := rfl
@[simp] theorem State.recordRead_status (a : Offset) (v : Byte) : (s.recordRead a v).status = s.status := rfl
@[simp] theorem State.recordRead_errCause (a : Offset) (v : Byte) : (s.recordRead a v).errCause = s.errCause := rfl
@[simp] theorem State.recordRead_errSub (a : Offset) (v : Byte) : (s.recordRead a v).errSub = s.errSub := rfl
@[simp] theorem State.recordRead_errPos (a : Offset) (v : Byte) : (s.recordRead a v).errPos = s.errPos := rfl
@[simp] theorem State.recordRead_errByte (a : Offset) (v : Byte) : (s.recordRead a v).errByte = s.errByte := rfl
@[simp] theorem State.recordRead_errFlags (a : Offset) (v : Byte) : (s.recordRead a v).errFlags = s.errFlags := rfl
@[simp] theorem State.recordRead_bytes (a : Offset) (v : Byte) : (s.recordRead a v).bytes = s.bytes := rfl
@[simp] theorem State.recordRead_deviceType (a : Offset) (v : Byte) : (s.recordRead a v).deviceType = s.deviceType := rfl
@[simp] theorem State.recordRead_time (a : Offset) (v : Byte) : (s.recordRead a v).time = s.time := rfl
@[simp] theorem State.recordRead_stateCode (a : Offset) (v : Byte) : (s.recordRead a v).stateCode = s.stateCode := rfl
@[simp] theorem State.recordRead_socX2 (a : Offset) (v : Byte) : (s.recordRead a v).socX2 = s.socX2 := rfl
@[simp] theorem State.recordRead_tempX2 (a : Offset) (v : Byte) : (s.recordRead a v).tempX2 = s.tempX2 := rfl
@[simp] theorem State.recordRead_pending (a : Offset) (v : Byte) : (s.recordRead a v).pending = s.pending := rfl
@[simp] theorem State.recordRead_faults (a : Offset) (v : Byte) : (s.recordRead a v).faults = s.faults := rfl
@[simp] theorem State.recordRead_reads (a : Offset) (v : Byte) : (s.recordRead a v).reads = s.reads ++ [(a, v)] := rfl

/-! withPending -/
@[simp] theorem State.withPending_inChar (p : List HostEvent) : (s.withPending p).inChar = s.inChar := rfl
@[simp] theorem State.withPending_inLen (p : List HostEvent) : (s.withPending p).inLen = s.inLen := rfl
@[simp] theorem State.withPending_inPresent (p : List HostEvent) : (s.withPending p).inPresent = s.inPresent := rfl
@[simp] theorem State.withPending_cmd (p : List HostEvent) : (s.withPending p).cmd = s.cmd := rfl
@[simp] theorem State.withPending_status (p : List HostEvent) : (s.withPending p).status = s.status := rfl
@[simp] theorem State.withPending_errCause (p : List HostEvent) : (s.withPending p).errCause = s.errCause := rfl
@[simp] theorem State.withPending_errSub (p : List HostEvent) : (s.withPending p).errSub = s.errSub := rfl
@[simp] theorem State.withPending_errPos (p : List HostEvent) : (s.withPending p).errPos = s.errPos := rfl
@[simp] theorem State.withPending_errByte (p : List HostEvent) : (s.withPending p).errByte = s.errByte := rfl
@[simp] theorem State.withPending_errFlags (p : List HostEvent) : (s.withPending p).errFlags = s.errFlags := rfl
@[simp] theorem State.withPending_bytes (p : List HostEvent) : (s.withPending p).bytes = s.bytes := rfl
@[simp] theorem State.withPending_deviceType (p : List HostEvent) : (s.withPending p).deviceType = s.deviceType := rfl
@[simp] theorem State.withPending_time (p : List HostEvent) : (s.withPending p).time = s.time := rfl
@[simp] theorem State.withPending_stateCode (p : List HostEvent) : (s.withPending p).stateCode = s.stateCode := rfl
@[simp] theorem State.withPending_socX2 (p : List HostEvent) : (s.withPending p).socX2 = s.socX2 := rfl
@[simp] theorem State.withPending_tempX2 (p : List HostEvent) : (s.withPending p).tempX2 = s.tempX2 := rfl
@[simp] theorem State.withPending_pending (p : List HostEvent) : (s.withPending p).pending = p := rfl
@[simp] theorem State.withPending_faults (p : List HostEvent) : (s.withPending p).faults = s.faults := rfl
@[simp] theorem State.withPending_reads (p : List HostEvent) : (s.withPending p).reads = s.reads := rfl

/-! applyReset -/
@[simp] theorem State.applyReset_inChar : s.applyReset.inChar = Vector.replicate 16 none := rfl
@[simp] theorem State.applyReset_inLen : s.applyReset.inLen = none := rfl
@[simp] theorem State.applyReset_inPresent : s.applyReset.inPresent = 0 := rfl
@[simp] theorem State.applyReset_cmd : s.applyReset.cmd = none := rfl
@[simp] theorem State.applyReset_status : s.applyReset.status = 0 := rfl
@[simp] theorem State.applyReset_errCause : s.applyReset.errCause = 0 := rfl
@[simp] theorem State.applyReset_errSub : s.applyReset.errSub = 0 := rfl
@[simp] theorem State.applyReset_errPos : s.applyReset.errPos = none := rfl
@[simp] theorem State.applyReset_errByte : s.applyReset.errByte = none := rfl
@[simp] theorem State.applyReset_errFlags : s.applyReset.errFlags = 0 := rfl
@[simp] theorem State.applyReset_bytes : s.applyReset.bytes = Vector.replicate 8 none := rfl
@[simp] theorem State.applyReset_deviceType : s.applyReset.deviceType = none := rfl
@[simp] theorem State.applyReset_time : s.applyReset.time = none := rfl
@[simp] theorem State.applyReset_stateCode : s.applyReset.stateCode = none := rfl
@[simp] theorem State.applyReset_socX2 : s.applyReset.socX2 = none := rfl
@[simp] theorem State.applyReset_tempX2 : s.applyReset.tempX2 = none := rfl
@[simp] theorem State.applyReset_pending : s.applyReset.pending = s.pending := rfl
@[simp] theorem State.applyReset_faults : s.applyReset.faults = s.faults := rfl
@[simp] theorem State.applyReset_reads : s.applyReset.reads = s.reads := rfl

/-! reset -/
@[simp] theorem State.reset_inChar : State.reset.inChar = Vector.replicate 16 none := rfl
@[simp] theorem State.reset_inLen : State.reset.inLen = none := rfl
@[simp] theorem State.reset_inPresent : State.reset.inPresent = 0 := rfl
@[simp] theorem State.reset_cmd : State.reset.cmd = none := rfl
@[simp] theorem State.reset_status : State.reset.status = 0 := rfl
@[simp] theorem State.reset_errCause : State.reset.errCause = 0 := rfl
@[simp] theorem State.reset_errSub : State.reset.errSub = 0 := rfl
@[simp] theorem State.reset_errPos : State.reset.errPos = none := rfl
@[simp] theorem State.reset_errByte : State.reset.errByte = none := rfl
@[simp] theorem State.reset_errFlags : State.reset.errFlags = 0 := rfl
@[simp] theorem State.reset_bytes : State.reset.bytes = Vector.replicate 8 none := rfl
@[simp] theorem State.reset_deviceType : State.reset.deviceType = none := rfl
@[simp] theorem State.reset_time : State.reset.time = none := rfl
@[simp] theorem State.reset_stateCode : State.reset.stateCode = none := rfl
@[simp] theorem State.reset_socX2 : State.reset.socX2 = none := rfl
@[simp] theorem State.reset_tempX2 : State.reset.tempX2 = none := rfl
@[simp] theorem State.reset_pending : State.reset.pending = [] := rfl
@[simp] theorem State.reset_faults : State.reset.faults = [] := rfl
@[simp] theorem State.reset_reads : State.reset.reads = [] := rfl

end

end Sys2Proof.Machine
end

