-- ==== Sys2Proof/Laws/Ops.lean ====
section
/-! SUPPORT. What each shared operation can do, said once: the reading of the characters, the structural check, the operation step,
the end of a body, and what exec answers for a command. -/

namespace Sys2Proof.Machine

/-! The characters. -/

theorem readChars_eq_some_iff (cells : Vector (Option Byte) 16) (cs : Chars) :
    readChars cells = some cs ↔ ∀ i : Fin 16, cells[i] = some cs[i] := by
  unfold readChars
  split
  · rename_i h
    rw [Option.some.injEq]
    constructor
    · rintro rfl i
      simp
    · intro hc
      ext i hi
      have := hc ⟨i, hi⟩
      simp at this
      simp [this]
  · rename_i h
    refine ⟨by simp, fun hc => absurd (fun i => ?_) h⟩
    simp [hc i]

theorem readChars_eq_none_iff (cells : Vector (Option Byte) 16) :
    readChars cells = none ↔ ∃ i : Fin 16, cells[i] = none := by
  unfold readChars
  split
  · rename_i h
    simp only [reduceCtorEq, false_iff, not_exists]
    intro i hi
    have := h i
    rw [hi] at this
    simp at this
  · rename_i h
    simpa using h

theorem firstNonHex_eq_none_iff (cs : Chars) : firstNonHex cs = none ↔ ∀ i : Fin 16, ishex cs[i] = true := by
  simp [firstNonHex]

/-- The position reported is the lowest offending one (R105). -/
theorem firstNonHex_eq_some_iff (cs : Chars) (p : Fin 16) :
    firstNonHex cs = some p ↔ ishex cs[p] = false ∧ ∀ j : Fin 16, j < p → ishex cs[j] = true := by
  unfold firstNonHex
  rw [List.find?_eq_some_iff_getElem]
  simp only [Bool.not_eq_eq_eq_not, Bool.not_true, List.getElem_finRange, List.length_finRange]
  constructor
  · rintro ⟨hp, i, hi, rfl, hlt⟩
    exact ⟨hp, fun j hj => by simpa using hlt j.val hj⟩
  · rintro ⟨hp, hlt⟩
    exact ⟨hp, p.val, p.isLt, rfl, fun j hj => by simpa using hlt ⟨j, by omega⟩ hj⟩

/-! The structural check. -/

theorem structuralCheck_of_holds {s : State} {cs : Chars} (h : HoldsPayload s cs) : structuralCheck s = .passed cs := by
  have hr := (readChars_eq_some_iff s.inChar cs).2 h.chars
  have hf := (firstNonHex_eq_none_iff cs).2 h.hex
  simp [structuralCheck, h.present, h.length, Config.payloadChars, hr, hf]

theorem structuralCheck_missing {s : State} (h : s.inPresent = 0) : structuralCheck s = .failed .missing none := by
  simp [structuralCheck, h]

theorem structuralCheck_length {s : State} {n : Byte} (hp : s.inPresent = 1) (hl : s.inLen = some n) (hn : n ≠ 16) :
    structuralCheck s = .failed .length none := by
  simp only [structuralCheck, hp, hl]
  rw [if_neg (by decide)]
  exact if_pos hn

theorem structuralCheck_nonhex {s : State} {cs : Chars} {p : Fin 16} (hp : s.inPresent = 1) (hl : s.inLen = some 16)
    (hc : ∀ i : Fin 16, s.inChar[i] = some cs[i]) (hx : ishex cs[p] = false)
    (hlow : ∀ j : Fin 16, j < p → ishex cs[j] = true) :
    structuralCheck s = .failed .nonhex (some (BitVec.ofFin p)) := by
  have hr := (readChars_eq_some_iff s.inChar cs).2 hc
  have hf := (firstNonHex_eq_some_iff cs p).2 ⟨hx, hlow⟩
  simp [structuralCheck, hp, hl, Config.payloadChars, hr, hf]

/-- A 1-bit register that is not 0 is 1. -/
theorem bit_cases (b : BitVec 1) : b = 0 ∨ b = 1 := by
  revert b
  decide

/-- Everything the structural check can find, each case with what the inputs then hold. -/
theorem structuralCheck_cases (s : State) :
    (s.inPresent = 0 ∧ structuralCheck s = .failed .missing none)
    ∨ (s.inPresent = 1 ∧ s.inLen = none ∧ structuralCheck s = .unwritten)
    ∨ (s.inPresent = 1 ∧ (∃ n, s.inLen = some n ∧ n ≠ 16) ∧ structuralCheck s = .failed .length none)
    ∨ (s.inPresent = 1 ∧ s.inLen = some 16 ∧ (∃ i : Fin 16, s.inChar[i] = none) ∧ structuralCheck s = .unwritten)
    ∨ (∃ cs : Chars, ∃ p : Fin 16, s.inPresent = 1 ∧ s.inLen = some 16 ∧ (∀ i : Fin 16, s.inChar[i] = some cs[i])
        ∧ ishex cs[p] = false ∧ (∀ j : Fin 16, j < p → ishex cs[j] = true)
        ∧ structuralCheck s = .failed .nonhex (some (BitVec.ofFin p)))
    ∨ (∃ cs : Chars, HoldsPayload s cs ∧ structuralCheck s = .passed cs) := by
  rcases bit_cases s.inPresent with hp | hp
  · exact .inl ⟨hp, structuralCheck_missing hp⟩
  rcases hl : s.inLen with _ | n
  · exact .inr (.inl ⟨hp, rfl, by simp [structuralCheck, hp, hl]⟩)
  by_cases hn : n = 16
  · subst hn
    rcases hr : readChars s.inChar with _ | cs
    · exact .inr (.inr (.inr (.inl ⟨hp, rfl, (readChars_eq_none_iff _).1 hr,
        by simp [structuralCheck, hp, hl, Config.payloadChars, hr]⟩)))
    have hc := (readChars_eq_some_iff _ _).1 hr
    rcases hf : firstNonHex cs with _ | p
    · have h : HoldsPayload s cs := ⟨hp, hl, hc, (firstNonHex_eq_none_iff cs).1 hf⟩
      exact .inr (.inr (.inr (.inr (.inr ⟨cs, h, structuralCheck_of_holds h⟩))))
    · obtain ⟨hx, hlow⟩ := (firstNonHex_eq_some_iff cs p).1 hf
      exact .inr (.inr (.inr (.inr (.inl ⟨cs, p, hp, rfl, hc, hx, hlow, structuralCheck_nonhex hp hl hc hx hlow⟩))))
  · exact .inr (.inr (.inl ⟨hp, ⟨n, rfl, hn⟩, structuralCheck_length hp hl hn⟩))

/-- UNWRITTEN_INPUT is found exactly when a cell that must be read holds ⊥ (R106, R189). -/
theorem structuralCheck_unwritten_iff (s : State) : structuralCheck s = .unwritten ↔ ¬InputsReadable s := by
  rcases structuralCheck_cases s with ⟨hp, h⟩ | ⟨hp, hl, h⟩ | ⟨hp, ⟨n, hl, hn⟩, h⟩ | ⟨hp, hl, ⟨i, hi⟩, h⟩
      | ⟨cs, p, hp, hl, hc, -, -, h⟩ | ⟨cs, hs, h⟩
  · simp [h, hp]
  · simp [h, hp, hl]
  · simp only [h, reduceCtorEq, false_iff, not_not]
    exact fun _ => ⟨by simp [hl], fun h16 => absurd (by simpa [hl] using h16) hn⟩
  · simp only [h, true_iff]
    intro hr
    have := (hr hp).2 hl i
    simp [hi] at this
  · simp only [h, reduceCtorEq, false_iff, not_not]
    exact fun _ => ⟨by simp [hl], fun _ i => by simp [hc i]⟩
  · simp only [h, reduceCtorEq, false_iff, not_not]
    exact fun _ => ⟨by simp [hs.length], fun _ i => by simp [hs.chars i]⟩

/-! The operation step. -/

theorem operate_passed {s : State} {cs : Chars} (v : Byte) (body : Payload → State → State) (h : HoldsPayload s cs) :
    operate v body s = body (convertBytes cs) ((s.setCmd v).prologue.setBytes (convertBytes cs)) := by
  simp [operate, structuralCheck_of_holds h]

theorem operate_failed {s : State} {u : ErrSub} {p : Option (BitVec 4)} (v : Byte) (body : Payload → State → State)
    (h : structuralCheck s = .failed u p) :
    operate v body s = (s.setCmd v).prologue.raise .structural u p 0b000 := by
  simp [operate, h]

theorem operate_unwritten {s : State} (v : Byte) (body : Payload → State → State) (h : ¬InputsReadable s) :
    operate v body s = s.recordFault .unwrittenInput := by
  simp [operate, (structuralCheck_unwritten_iff s).2 h]

/-- Everything an operation can do: record UNWRITTEN_INPUT, report a STRUCTURAL error, or run its body on the converted bytes. -/
theorem operate_cases (v : Byte) (body : Payload → State → State) (s : State) :
    (¬InputsReadable s ∧ operate v body s = s.recordFault .unwrittenInput)
    ∨ (∃ u p, structuralCheck s = .failed u p ∧ operate v body s = (s.setCmd v).prologue.raise .structural u p 0b000)
    ∨ (∃ cs, HoldsPayload s cs
        ∧ operate v body s = body (convertBytes cs) ((s.setCmd v).prologue.setBytes (convertBytes cs))) := by
  rcases structuralCheck_cases s with ⟨-, h⟩ | ⟨-, -, h⟩ | ⟨-, -, h⟩ | ⟨-, -, -, h⟩ | ⟨_, _, -, -, -, -, -, h⟩
      | ⟨cs, hs, -⟩
  · exact .inr (.inl ⟨_, _, h, operate_failed v body h⟩)
  · exact .inl ⟨(structuralCheck_unwritten_iff s).1 h, operate_unwritten v body ((structuralCheck_unwritten_iff s).1 h)⟩
  · exact .inr (.inl ⟨_, _, h, operate_failed v body h⟩)
  · exact .inl ⟨(structuralCheck_unwritten_iff s).1 h, operate_unwritten v body ((structuralCheck_unwritten_iff s).1 h)⟩
  · exact .inr (.inl ⟨_, _, h, operate_failed v body h⟩)
  · exact .inr (.inr ⟨cs, hs, operate_passed v body hs⟩)

/-! The end of a body. -/

@[simp] theorem State.conclude_zero (s : State) : s.conclude 0 = s.finishOk := rfl

/-- Everything `conclude` can do. -/
theorem State.conclude_cases (s : State) (f : BitVec 3) :
    (f = 0 ∧ s.conclude f = s.finishOk)
    ∨ (f.getLsbD 0 = true ∧ s.conclude f = s.raise .decode .none none f)
    ∨ (f ≠ 0 ∧ f.getLsbD 0 = false ∧ s.conclude f = s.raise .range .none none f) := by
  by_cases h : f = 0
  · exact .inl ⟨h, if_pos h⟩
  · by_cases hb : f.getLsbD 0 = true
    · exact .inr (.inl ⟨hb, (if_neg h).trans (if_pos hb)⟩)
    · exact .inr (.inr ⟨h, by simpa using hb, (if_neg h).trans (if_neg hb)⟩)

@[simp] theorem State.conclude_inChar (s : State) (f : BitVec 3) : (s.conclude f).inChar = s.inChar := by
  rcases s.conclude_cases f with ⟨-, h⟩ | ⟨-, h⟩ | ⟨-, -, h⟩ <;> simp [h]

@[simp] theorem State.conclude_inLen (s : State) (f : BitVec 3) : (s.conclude f).inLen = s.inLen := by
  rcases s.conclude_cases f with ⟨-, h⟩ | ⟨-, h⟩ | ⟨-, -, h⟩ <;> simp [h]

@[simp] theorem State.conclude_inPresent (s : State) (f : BitVec 3) : (s.conclude f).inPresent = s.inPresent := by
  rcases s.conclude_cases f with ⟨-, h⟩ | ⟨-, h⟩ | ⟨-, -, h⟩ <;> simp [h]

@[simp] theorem State.conclude_cmd (s : State) (f : BitVec 3) : (s.conclude f).cmd = s.cmd := by
  rcases s.conclude_cases f with ⟨-, h⟩ | ⟨-, h⟩ | ⟨-, -, h⟩ <;> simp [h]

@[simp] theorem State.conclude_errPos (s : State) (f : BitVec 3) : (s.conclude f).errPos = s.errPos := by
  rcases s.conclude_cases f with ⟨-, h⟩ | ⟨-, h⟩ | ⟨-, -, h⟩ <;> simp [h]

@[simp] theorem State.conclude_errByte (s : State) (f : BitVec 3) : (s.conclude f).errByte = s.errByte := by
  rcases s.conclude_cases f with ⟨-, h⟩ | ⟨-, h⟩ | ⟨-, -, h⟩ <;> simp [h]

@[simp] theorem State.conclude_bytes (s : State) (f : BitVec 3) : (s.conclude f).bytes = s.bytes := by
  rcases s.conclude_cases f with ⟨-, h⟩ | ⟨-, h⟩ | ⟨-, -, h⟩ <;> simp [h]

@[simp] theorem State.conclude_deviceType (s : State) (f : BitVec 3) : (s.conclude f).deviceType = s.deviceType := by
  rcases s.conclude_cases f with ⟨-, h⟩ | ⟨-, h⟩ | ⟨-, -, h⟩ <;> simp [h]

@[simp] theorem State.conclude_time (s : State) (f : BitVec 3) : (s.conclude f).time = s.time := by
  rcases s.conclude_cases f with ⟨-, h⟩ | ⟨-, h⟩ | ⟨-, -, h⟩ <;> simp [h]

@[simp] theorem State.conclude_stateCode (s : State) (f : BitVec 3) : (s.conclude f).stateCode = s.stateCode := by
  rcases s.conclude_cases f with ⟨-, h⟩ | ⟨-, h⟩ | ⟨-, -, h⟩ <;> simp [h]

@[simp] theorem State.conclude_socX2 (s : State) (f : BitVec 3) : (s.conclude f).socX2 = s.socX2 := by
  rcases s.conclude_cases f with ⟨-, h⟩ | ⟨-, h⟩ | ⟨-, -, h⟩ <;> simp [h]

@[simp] theorem State.conclude_tempX2 (s : State) (f : BitVec 3) : (s.conclude f).tempX2 = s.tempX2 := by
  rcases s.conclude_cases f with ⟨-, h⟩ | ⟨-, h⟩ | ⟨-, -, h⟩ <;> simp [h]

@[simp] theorem State.conclude_pending (s : State) (f : BitVec 3) : (s.conclude f).pending = s.pending := by
  rcases s.conclude_cases f with ⟨-, h⟩ | ⟨-, h⟩ | ⟨-, -, h⟩ <;> simp [h]

@[simp] theorem State.conclude_faults (s : State) (f : BitVec 3) : (s.conclude f).faults = s.faults := by
  rcases s.conclude_cases f with ⟨-, h⟩ | ⟨-, h⟩ | ⟨-, -, h⟩ <;> simp [h]

@[simp] theorem State.conclude_reads (s : State) (f : BitVec 3) : (s.conclude f).reads = s.reads := by
  rcases s.conclude_cases f with ⟨-, h⟩ | ⟨-, h⟩ | ⟨-, -, h⟩ <;> simp [h]

@[simp] theorem State.conclude_status (s : State) (f : BitVec 3) : (s.conclude f).status = if f = 0 then 1 else 2 := by
  rcases s.conclude_cases f with ⟨hf, h⟩ | ⟨hf, h⟩ | ⟨hf, -, h⟩
  · rw [h, if_pos hf, State.finishOk_status]
  · rw [h, if_neg (by rintro rfl; simp at hf), State.raise_status]
  · rw [h, if_neg hf, State.raise_status]

@[simp] theorem State.conclude_errCause (s : State) (f : BitVec 3) :
    (s.conclude f).errCause = if f = 0 then s.errCause else if f.getLsbD 0 = true then 2 else 3 := by
  rcases s.conclude_cases f with ⟨hf, h⟩ | ⟨hf, h⟩ | ⟨hf, hb, h⟩
  · rw [h, if_pos hf, State.finishOk_errCause]
  · rw [h, if_neg (by rintro rfl; simp at hf), if_pos hf]
    rfl
  · rw [h, if_neg hf, if_neg (by simpa using hb)]
    rfl

@[simp] theorem State.conclude_errSub (s : State) (f : BitVec 3) :
    (s.conclude f).errSub = if f = 0 then s.errSub else 0 := by
  rcases s.conclude_cases f with ⟨hf, h⟩ | ⟨hf, h⟩ | ⟨hf, -, h⟩
  · rw [h, if_pos hf, State.finishOk_errSub]
  · rw [h, if_neg (by rintro rfl; simp at hf)]
    rfl
  · rw [h, if_neg hf]
    rfl

@[simp] theorem State.conclude_errFlags (s : State) (f : BitVec 3) :
    (s.conclude f).errFlags = if f = 0 then s.errFlags else f := by
  rcases s.conclude_cases f with ⟨hf, h⟩ | ⟨hf, h⟩ | ⟨hf, -, h⟩
  · rw [h, if_pos hf, State.finishOk_errFlags]
  · rw [h, if_neg (by rintro rfl; simp at hf), State.raise_errFlags]
  · rw [h, if_neg hf, State.raise_errFlags]

/-! What exec answers. -/

/-- The body of a legal command; an illegal command has none and keeps the state. -/
def bodyOf : Instr → Payload → State → State
  | .conv => convBody
  | .devtype => devtypeBody
  | .time => timeBody
  | .state => stateBody
  | .soc => socBody
  | .temp => tempBody
  | .record => recordBody
  | .illegalOp7 _ => fun _ s => s
  | .illegalRsvd _ _ => fun _ s => s

theorem exec_legal {i : Instr} (h : IsLegal i = true) (s : State) :
    exec i s = .next (operate (encode i) (bodyOf i) s) := by
  cases i <;> first | rfl | simp [IsLegal] at h

theorem exec_illegal {i : Instr} (h : IsLegal i = false) (s : State) :
    exec i s = .next (illegalOperation (encode i) s) := by
  cases i <;> first | rfl | simp [IsLegal] at h

theorem exec_of_holds {i : Instr} {s : State} {cs : Chars} (hi : IsLegal i = true) (h : HoldsPayload s cs) :
    exec i s = .next (bodyOf i (convertBytes cs) ((s.setCmd (encode i)).prologue.setBytes (convertBytes cs))) := by
  rw [exec_legal hi, operate_passed _ _ h]

theorem exec_unwritten {i : Instr} {s : State} (hi : IsLegal i = true) (h : ¬InputsReadable s) :
    exec i s = .next (s.recordFault .unwrittenInput) := by
  rw [exec_legal hi, operate_unwritten _ _ h]

/-- What no body touches: the inputs, CMD, BYTES, and what is not a register. -/
theorem bodyOf_frame (i : Instr) (b : Payload) (s : State) :
    SameInputs s (bodyOf i b s) ∧ SameHostSide s (bodyOf i b s) ∧ (bodyOf i b s).cmd = s.cmd
      ∧ (bodyOf i b s).bytes = s.bytes := by
  cases i <;> simp [bodyOf, convBody, devtypeBody, timeBody, stateBody, socBody, tempBody, recordBody, SameInputs, SameHostSide]

/-- Every legal command fails structurally where its inputs are readable and no well-formed payload string. -/
theorem failsStructurally_of_legal {i : Instr} (hi : IsLegal i = true) : FailsStructurally i := by
  intro s hr hn
  rcases operate_cases (encode i) (bodyOf i) s with ⟨h, -⟩ | ⟨u, p, hc, h⟩ | ⟨cs, hs, -⟩
  · exact absurd hr h
  · have hu : u.code ≠ 0 := by
      rcases structuralCheck_cases s with ⟨-, h'⟩ | ⟨-, -, h'⟩ | ⟨-, -, h'⟩ | ⟨-, -, -, h'⟩ | ⟨_, _, -, -, -, -, -, h'⟩
          | ⟨_, -, h'⟩ <;> rw [hc] at h' <;> cases h' <;> decide
    refine ⟨_, exec_legal hi s, ?_⟩
    rw [h]
    simp only [ne_eq, State.raise_errSub, hu, not_false_eq_true, true_and]
    simp [ErrCause.code, BytesClear, FieldsClear, SameInputs, SameHostSide]
  · exact absurd ⟨cs, hs⟩ hn

/-- Every command answers a next state. -/
theorem exec_next (i : Instr) (s : State) : ∃ t, exec i s = .next t := by
  cases h : IsLegal i
  · exact ⟨_, exec_illegal h s⟩
  · exact ⟨_, exec_legal h s⟩

end Sys2Proof.Machine
end

