-- ==== Sys2Proof/Laws/Bus.lean ====
section
/-! SUPPORT. The register map, both ways, and what a bus access, a host event and a step can do. -/

namespace Sys2Proof.Machine

theorem regMap_inReg (r : InReg) : regMap r.offset = some (.input r) := by
  cases r with
  | inChar i => revert i; decide
  | inLen => decide
  | inPresent => decide
  | cmd => decide

theorem regMap_outReg (r : OutReg) : regMap r.offset = some (.output r) := by
  cases r with
  | byteAt k => revert k; decide
  | timeByte j => revert j; decide
  | _ => decide

/-- The byte that an offset maps to has that offset. -/
theorem offset_of_regMap {a : Offset} {e : MapEntry} (h : regMap a = some e) : e.offset = a := by
  have key : ∀ a : Offset, (regMap a).all (fun e => e.offset == a) = true := by decide
  simpa [h] using key a

/-- Everything a read can do (R54, R56). -/
theorem memRead_cases (a : Offset) (s : State) :
    (∃ f, memRead a s = .next (s.recordFault f)) ∨ (∃ v, memRead a s = .next (s.recordRead a v)) := by
  unfold memRead
  split
  · exact .inl ⟨_, rfl⟩
  · exact .inl ⟨_, rfl⟩
  · split
    · exact .inl ⟨_, rfl⟩
    · exact .inr ⟨_, rfl⟩

/-- Everything a write can do (R55, R56). -/
theorem memWrite_cases (a : Offset) (v : Byte) (s : State) :
    (∃ f, memWrite a v s = .next (s.recordFault f))
    ∨ (∃ i, memWrite a v s = .next (s.setInChar i v))
    ∨ memWrite a v s = .next (s.setInLen v)
    ∨ memWrite a v s = .next (s.setInPresent (v.extractLsb' 0 1))
    ∨ a = 0x12 ∧ memWrite a v s = exec (decodeByte v) s := by
  unfold memWrite
  split
  · exact .inl ⟨_, rfl⟩
  · exact .inl ⟨_, rfl⟩
  · rename_i r h
    cases r with
    | inChar i => exact .inr (.inl ⟨i, rfl⟩)
    | inLen => exact .inr (.inr (.inl rfl))
    | inPresent =>
      simp only [writeInput]
      split
      · exact .inl ⟨_, rfl⟩
      · exact .inr (.inr (.inr (.inl rfl)))
    | cmd => exact .inr (.inr (.inr (.inr ⟨(offset_of_regMap h).symm, rfl⟩)))

theorem memWrite_cmd (v : Byte) (s : State) : memWrite 0x12 v s = exec (decodeByte v) s := rfl

theorem step_idle {s : State} (h : s.pending = []) : step s = .next s := by
  simp [step, h]

theorem step_event {s : State} {e : HostEvent} {rest : List HostEvent} (h : s.pending = e :: rest) :
    step s = hostEvent e (s.withPending rest) := by
  simp [step, h]

/-- Everything a step can do: nothing, one access or a reset, always with a next state (R197, R54, R55, R200). -/
theorem step_cases (s : State) :
    (s.pending = [] ∧ step s = .next s)
    ∨ ∃ e rest, s.pending = e :: rest ∧ step s = hostEvent e (s.withPending rest) := by
  rcases h : s.pending with _ | ⟨e, rest⟩
  · exact .inl ⟨rfl, step_idle h⟩
  · exact .inr ⟨e, rest, rfl, step_event h⟩

/-- One step of a run. -/
theorem run_succ {s t : State} (k : Nat) (h : step s = .next t) :
    Host.Core.run core (k + 1) s = Host.Core.run core k t := by
  have e : core.step s = .next t := h
  simp [Host.Core.run, e]

/-- Everything a host event can do, over the operations above. -/
theorem hostEvent_cases (e : HostEvent) (s : State) :
    (∃ f, hostEvent e s = .next (s.recordFault f))
    ∨ (∃ a v, hostEvent e s = .next (s.recordRead a v))
    ∨ (∃ i v, hostEvent e s = .next (s.setInChar i v))
    ∨ (∃ v, hostEvent e s = .next (s.setInLen v))
    ∨ (∃ v, hostEvent e s = .next (s.setInPresent v))
    ∨ (∃ v, e = .write 0x12 v ∧ hostEvent e s = exec (decodeByte v) s)
    ∨ e = .reset ∧ hostEvent e s = .next s.applyReset := by
  cases e with
  | write a v =>
    rcases memWrite_cases a v s with ⟨f, h⟩ | ⟨i, h⟩ | h | h | ⟨rfl, h⟩
    · exact .inl ⟨f, h⟩
    · exact .inr (.inr (.inl ⟨i, v, h⟩))
    · exact .inr (.inr (.inr (.inl ⟨v, h⟩)))
    · exact .inr (.inr (.inr (.inr (.inl ⟨_, h⟩))))
    · exact .inr (.inr (.inr (.inr (.inr (.inl ⟨v, rfl, h⟩)))))
  | read a =>
    rcases memRead_cases a s with ⟨f, h⟩ | ⟨v, h⟩
    · exact .inl ⟨f, h⟩
    · exact .inr (.inl ⟨a, v, h⟩)
  | reset => exact .inr (.inr (.inr (.inr (.inr (.inr ⟨rfl, rfl⟩)))))

end Sys2Proof.Machine
end

