-- ==== Sys2Proof/Laws/Fields.lean ====
section
/-! SUPPORT. The payload bytes, fields and flags as numbers: the spec's formulas (Safety.lean) and the machine's definitions agree. -/

namespace Sys2Proof.Machine

theorem append_nibbles (a b : BitVec 4) : a ++ b = (a.setWidth 8 <<< 4) ||| b.setWidth 8 := by
  revert a b
  decide

theorem append_nibbles_toNat (a b : BitVec 4) : (a ++ b).toNat = 16 * a.toNat + b.toNat := by
  revert a b
  decide

theorem getElem_convertBytes (cs : Chars) (k : Fin 8) : (convertBytes cs)[k] = specByte cs k := by
  simp [convertBytes, payloadByte, specByte, append_nibbles]

/-- BYTES as `setBytes` leaves them. -/
theorem getElem_some_convertBytes (cs : Chars) (k : Fin 8) :
    (Vector.ofFn fun j : Fin 8 => some (convertBytes cs)[j])[k] = some (specByte cs k) := by
  rw [← getElem_convertBytes]
  simp

theorem deviceTypeOf_convertBytes (cs : Chars) :
    deviceTypeOf (convertBytes cs) = (specByte cs 0 &&& 0x0F).setWidth 4 := by
  have h : deviceTypeOf (convertBytes cs) = ((convertBytes cs)[(0 : Fin 8)]).extractLsb' 0 4 := rfl
  rw [h, getElem_convertBytes]
  generalize specByte cs 0 = x
  revert x
  decide

/-- The timestamp as the sum of R124's shifted fragments. -/
theorem timeOf_toNat (b : Payload) :
    (timeOf b).toNat = b[4].toNat % 16 * 2 ^ 28 + b[3].toNat * 2 ^ 20 + b[2].toNat * 2 ^ 12 + b[1].toNat * 2 ^ 4
      + b[0].toNat / 16 := by
  have h : timeOf b = b[4].extractLsb' 0 4 ++ b[3].extractLsb' 0 8 ++ b[2].extractLsb' 0 8 ++ b[1].extractLsb' 0 8
      ++ b[0].extractLsb' 4 4 := rfl
  have h1 := b[1].isLt
  have h2 := b[2].isLt
  have h3 := b[3].isLt
  have h0 := b[0].isLt
  have l0 : b[0].toNat / 16 < 2 ^ 4 := by omega
  rw [h]
  simp only [BitVec.toNat_append, BitVec.extractLsb'_toNat, Nat.shiftRight_eq_div_pow]
  rw [show b[0].toNat / 2 ^ 4 % 2 ^ 4 = b[0].toNat / 16 by omega, show b[1].toNat / 2 ^ 0 % 2 ^ 8 = b[1].toNat by omega,
    show b[2].toNat / 2 ^ 0 % 2 ^ 8 = b[2].toNat by omega, show b[3].toNat / 2 ^ 0 % 2 ^ 8 = b[3].toNat by omega,
    ← Nat.shiftLeft_add_eq_or_of_lt h3, ← Nat.shiftLeft_add_eq_or_of_lt h2, ← Nat.shiftLeft_add_eq_or_of_lt h1,
    ← Nat.shiftLeft_add_eq_or_of_lt l0]
  simp only [Nat.shiftLeft_eq]
  omega

theorem timeOf_convertBytes (cs : Chars) : (timeOf (convertBytes cs)).toNat = specTime cs := by
  rw [timeOf_toNat]
  simp only [specTime, ← getElem_convertBytes]
  rfl

theorem specState_lt (cs : Chars) : specState cs < 16 := by
  have := (specByte cs 4).isLt
  unfold specState
  omega

theorem stateCodeOf_convertBytes (cs : Chars) : stateCodeOf (convertBytes cs) = BitVec.ofNat 4 (specState cs) := by
  have h : stateCodeOf (convertBytes cs) = ((convertBytes cs)[(4 : Fin 8)]).extractLsb' 4 4 := rfl
  rw [h, getElem_convertBytes, specState]
  generalize specByte cs 4 = x
  revert x
  decide

theorem socOf_convertBytes (cs : Chars) : socOf (convertBytes cs) = specByte cs 5 := by
  have h : socOf (convertBytes cs) = ((convertBytes cs)[(5 : Fin 8)]).extractLsb' 0 8 := rfl
  rw [h, getElem_convertBytes]
  simp

theorem rawTempOf_convertBytes (cs : Chars) : rawTempOf (convertBytes cs) = specByte cs 6 := by
  have h : rawTempOf (convertBytes cs) = ((convertBytes cs)[(6 : Fin 8)]).extractLsb' 0 8 := rfl
  rw [h, getElem_convertBytes]
  simp

theorem stateInvalidFlag_toNat (x : BitVec 4) : stateInvalidFlag x = if 8 < x.toNat then 1 else 0 := by
  revert x
  decide

theorem socRangeFlag_toNat (x : Byte) : socRangeFlag x = if 200 < x.toNat then 2 else 0 := by
  revert x
  decide

theorem tempRangeFlag_toNat (x : Byte) : tempRangeFlag x = if 240 < x.toNat then 4 else 0 := by
  revert x
  decide

theorem tempX2Of_toInt (x : Byte) : (tempX2Of x).toInt = (x.toNat : Int) - 40 := by
  revert x
  decide

theorem stateInvalidFlag_convertBytes (cs : Chars) :
    stateInvalidFlag (stateCodeOf (convertBytes cs)) = if 8 < specState cs then 1 else 0 := by
  rw [stateCodeOf_convertBytes, stateInvalidFlag_toNat, BitVec.toNat_ofNat, Nat.mod_eq_of_lt (specState_lt cs)]

theorem recordFlags_convertBytes (cs : Chars) :
    recordFlags (convertBytes cs) =
      (if 8 < specState cs then 1 else 0) ||| (if 200 < (specByte cs 5).toNat then 2 else 0)
        ||| (if 240 < (specByte cs 6).toNat then 4 else 0) := by
  rw [recordFlags, stateInvalidFlag_convertBytes, socOf_convertBytes, rawTempOf_convertBytes, socRangeFlag_toNat,
    tempRangeFlag_toNat]

end Sys2Proof.Machine
end

