-- ==== Sys2Proof/Laws/HostSide.lean ====
section
/-! SUPPORT. The detail entries as a set and as a number. -/

namespace Sys2Proof.Machine

@[simp] theorem mem_entryIf (c : Prop) [Decidable c] (d e : ErrorDetail) : e ∈ entryIf c d ↔ c ∧ e = d := by
  unfold entryIf
  split <;> simp_all

@[simp] theorem length_entryIf (c : Prop) [Decidable c] (d : ErrorDetail) : (entryIf c d).length = if c then 1 else 0 := by
  unfold entryIf
  split <;> rfl

/-- The entries of a report without a structural error and without ILLEGAL_OP. -/
theorem errorDetails_of_flags {s : State} (hs : s.errSub = 0) (hc : s.errCause ≠ 5) :
    errorDetails s = entryIf (s.errFlags.getLsbD 0) (stateEntry s) ++ entryIf (s.errFlags.getLsbD 1) (socEntry s)
      ++ entryIf (s.errFlags.getLsbD 2) (tempEntry s) := by
  have h5 : s.errCause ≠ ErrCause.illegalOp.code := hc
  simp [errorDetails, entryIf, hs, ErrSub.code, h5]

end Sys2Proof.Machine
end

