-- ==== Sys2Proof/Laws/PerInstr.lean ====
section
/-! SUPPORT. The family RoundTrip: a well-formed command is what its command byte decodes to (spec/30_encoding.md R70 to R72), one
lemma per constructor. -/

namespace Sys2Proof.Laws.RoundTrip

/-- The command byte of a well-formed command decodes to the command. -/
def Statement (i : Instr) : Prop := WellFormed i = true → decodeByte (encode i) = i

theorem conv : Statement .conv := fun _ => rfl
theorem devtype : Statement .devtype := fun _ => rfl
theorem time : Statement .time := fun _ => rfl
theorem state : Statement .state := fun _ => rfl
theorem soc : Statement .soc := fun _ => rfl
theorem temp : Statement .temp := fun _ => rfl
theorem record : Statement .record := fun _ => rfl

theorem illegalOp7 (rsvd : BitVec 5) : Statement (.illegalOp7 rsvd) := by
  unfold Statement
  revert rsvd
  decide

theorem illegalRsvd (rsvd : BitVec 5) (op : BitVec 3) : Statement (.illegalRsvd rsvd op) := by
  unfold Statement
  revert rsvd op
  decide

end Sys2Proof.Laws.RoundTrip
end

