-- ==== Sys2Proof/Tests/Slice0.lean ====
section
/-! SUPPORT. The model's own tests. Expected results come from spec/ alone: the test vectors V01 to V109 of spec/95_test_vectors.md,
the rules, and the command bytes of spec/30_encoding.md R71 written out bit by bit. The witness theorems show, for each
statement with hypotheses, inputs that meet them. -/

namespace Sys2Proof.Tests

open Sys2Proof.Machine

/-! Helpers. -/

/-- The characters of a payload string in IN_CHAR; a position beyond its end holds ⊥. -/
def cells (p : String) : Vector (Option Byte) 16 := Vector.ofFn fun i => (p.toList[i.val]?).map charCode

/-- Reset, then `PAYLOAD p`, as R58 leaves the inputs. -/
def loaded (p : String) : State :=
  { State.reset with inChar := cells p, inLen := some (BitVec.ofNat 8 (min p.toList.length 255)), inPresent := 1 }

/-- The same, with a write of CMD as the host's next access. -/
def ready (p : String) (v : Byte) : State := (loaded p).withPending [.write 0x12 v]

/-- What a function sees of the next state. -/
def after {α : Type} (o : Host.Outcome State Fault Refusal) (f : State → α) : Option α :=
  match o with
  | .next t => some (f t)
  | .fault _ => none
  | .refused _ => none

/-- The error report of a state. -/
def report (t : State) : BitVec 2 × BitVec 3 × BitVec 2 × BitVec 3 := (t.status, t.errCause, t.errSub, t.errFlags)

/-- The payload of the source's first worked example (X1). -/
def x1 : String := "F1E6E63676C75000"

/-- The characters of a full payload string. -/
def chars (p : String) : Chars := Vector.ofFn fun i => charCode (p.toList[i.val]?.getD ' ')

/-! The checks of WellFormed: RSVD must be nonzero in the row RSVD ≠ 0, and its OP must not be 7 (R72). -/

theorem test_wellFormed_refuses_zero_rsvd : WellFormed (.illegalRsvd 0 3) = false := by decide
theorem test_wellFormed_refuses_op7 : WellFormed (.illegalRsvd 1 7) = false := by decide

/-! Decoding: each command byte from its bits, RSVD in 7:3 and OP in 2:0 (R70, R71). -/

theorem test_decode_conv : decodeByte 0b00000000 = .conv := by decide
theorem test_decode_devtype : decodeByte 0b00000001 = .devtype := by decide
theorem test_decode_time : decodeByte 0b00000010 = .time := by decide
theorem test_decode_state : decodeByte 0b00000011 = .state := by decide
theorem test_decode_soc : decodeByte 0b00000100 = .soc := by decide
theorem test_decode_temp : decodeByte 0b00000101 = .temp := by decide
theorem test_decode_record : decodeByte 0b00000110 = .record := by decide
theorem test_decode_illegal_op7 : decodeByte 0b10110111 = .illegalOp7 0b10110 := by decide
theorem test_decode_illegal_rsvd : decodeByte 0b00001110 = .illegalRsvd 0b00001 0b110 := by decide
theorem test_decode_rejects_no_byte : decode [] = .error .noCommandByte := by decide
theorem test_decodeTableWord_time : decodeTableWord 8 0x02 = some .time := by decide
theorem test_decodeTableWord_op7 : decodeTableWord 8 0x07 = some (.illegalOp7 0) := by decide
theorem test_encode_illegal_rsvd : encode (.illegalRsvd 0b10000 0b000) = 0x80 := by decide

/-! One step for each command. -/

/-- V03: mixed case. -/
theorem test_conv_mixed_case :
    after (step (ready "F1e6E63676c75000" 0x00)) (fun t => (t.bytes, report t, t.deviceType)) =
      some (#v[some 0xF1, some 0xE6, some 0xE6, some 0x36, some 0x76, some 0xC7, some 0x50, some 0x00], (1, 0, 0, 0), none) := by
  decide
/-- V16: the first offending position, and BYTES stay ⊥. -/
theorem test_conv_nonhex :
    after (step (ready "0xE6E63676C75000" 0x00)) (fun t => (report t, t.errPos, t.errByte, t.bytes[0])) =
      some ((2, 1, 3, 0), some 1, some 0, none) := by
  decide
/-- V33. -/
theorem test_devtype_15 :
    after (step (ready "0F00000000000000" 0x01)) (fun t => (t.deviceType, t.time, report t)) = some (some 15, none, (1, 0, 0, 0)) := by
  decide
/-- V36: the ranges do not matter to DEVTYPE. -/
theorem test_devtype_ignores_ranges :
    after (step (ready "F1E6E63676FFFF00" 0x01)) (fun t => (t.deviceType, t.socX2, report t)) = some (some 1, none, (1, 0, 0, 0)) := by
  decide
/-- V49. -/
theorem test_time_fragments :
    after (step (ready "8067452301000000" 0x02)) (fun t => (t.time, report t)) = some (some 0x12345678, (1, 0, 0, 0)) := by decide
/-- V40: no sign. -/
theorem test_time_largest :
    after (step (ready "F0FFFFFF0F000000" 0x02)) (fun t => (t.time, t.stateCode)) = some (some 4294967295, none) := by decide
/-- V58: code 8 is valid. -/
theorem test_state_8 :
    after (step (ready "F1E6E63686C75000" 0x03)) (fun t => (t.stateCode, report t)) = some (some 8, (1, 0, 0, 0)) := by decide
/-- V59: code 9 is not, and stays as the detail. -/
theorem test_state_9 :
    after (step (ready "F1E6E63696C75000" 0x03)) (fun t => (t.stateCode, report t)) = some (some 9, (2, 2, 0, 0b001)) := by decide
/-- V70. -/
theorem test_soc_200 :
    after (step (ready "F1E6E63676C85000" 0x04)) (fun t => (t.socX2, report t)) = some (some 200, (1, 0, 0, 0)) := by decide
/-- V71. -/
theorem test_soc_201 :
    after (step (ready "F1E6E63676C95000" 0x04)) (fun t => (t.socX2, report t)) = some (some 201, (2, 3, 0, 0b010)) := by decide
/-- V76: -0.5. -/
theorem test_temp_39 :
    after (step (ready "F1E6E63676C72700" 0x05)) (fun t => (t.tempX2, report t)) = some (some 0x1FF, (1, 0, 0, 0)) := by decide
/-- V82. -/
theorem test_temp_241 :
    after (step (ready "F1E6E63676C7F100" 0x05)) (fun t => (t.tempX2, report t)) = some (some 0x0C9, (2, 3, 0, 0b100)) := by decide
/-- V84, the source's first record. -/
theorem test_record_x1 :
    after (step (ready x1 0x06)) (fun t => (t.deviceType, t.time, t.stateCode, t.socX2, t.tempX2, report t)) =
      some (some 1, some 1668181615, some 7, some 199, some 0x028, (1, 0, 0, 0)) := by
  decide
/-- V96: DECODE wins over RANGE and both bits are set. -/
theorem test_record_decode_and_range :
    after (step (ready "F1E6E63696C7F100" 0x06)) (fun t => (t.time, t.tempX2, report t)) =
      some (some 1668181615, some 0x0C9, (2, 2, 0, 0b101)) := by
  decide
/-- V28: ILLEGAL_OP before the presence check; CMD holds the byte (R26). -/
theorem test_illegal_op7 :
    after (step (State.reset.withPending [.write 0x12 0x07])) (fun t => (report t, t.cmd)) = some ((2, 5, 0, 0), some 0x07) := by
  decide
/-- V29. -/
theorem test_illegal_rsvd :
    after (step (ready "F1E6E63676C7500" 0xF8)) (fun t => (report t, t.bytes[0])) = some ((2, 5, 0, 0), none) := by decide

/-! Structural validation, the bus and the model faults. -/

/-- V21, V99. -/
theorem test_record_missing :
    after (step (State.reset.withPending [.write 0x12 0x06])) (fun t => (report t, t.faults)) = some ((2, 1, 1, 0), []) := by decide
/-- V11: 17 characters. -/
theorem test_conv_length :
    after (step (ready "F1E6E63676C750000" 0x00)) (fun t => (report t, t.errPos)) = some ((2, 1, 2, 0), none) := by decide
/-- V101: no register changes. -/
theorem test_conv_unwritten :
    step ({ State.reset with inPresent := 1, inLen := some 16 }.withPending [.write 0x12 0x00])
      = .next { State.reset with inPresent := 1, inLen := some 16, faults := [.unwrittenInput] } :=
  rfl
/-- V104, V105, V106. -/
theorem test_host_access_faults :
    (after (memRead 0x00 State.reset) State.faults, after (memWrite 0x20 0 State.reset) State.faults,
      after (memRead 0x13 State.reset) State.faults) =
      (some [.readWriteOnly 0x00], some [.writeReadOnly 0x20], some [.readUnmapped 0x13]) := by
  decide
/-- V103. -/
theorem test_in_present_upper_bits :
    after (memWrite 0x11 0x02 State.reset) (fun t => (t.inPresent, t.faults)) = some (0, [.inPresentUpperBits 0x02]) := by decide
/-- V107, V108. -/
theorem test_read_time_bytes :
    ((List.finRange 5).map fun j => outByte { State.reset with time := some 0x636E6E6F } (.timeByte j)) =
      [some 0x6F, some 0x6E, some 0x6E, some 0x63, some 0x00] := by
  decide
/-- V109. -/
theorem test_read_temp_bytes :
    (outByte { State.reset with tempX2 := some (tempX2Of 0) } .tempLow, outByte { State.reset with tempX2 := some (tempX2Of 0) } .tempHigh)
      = (some 0xD8, some 0xFF) := by
  decide
/-- The host fetches nothing: the placed word is the next access (R22, R26). -/
theorem test_withFetchWord_runs :
    after (step (State.reset.withFetchWord 8 0x02)) (fun t => (t.cmd, report t, t.pending)) = some (some 0x02, (2, 1, 1, 0), []) := by
  decide

/-! The host. -/

/-- R74: `PAYLOAD "9Z"` and its accesses. -/
theorem test_expand_payload :
    HostStmt.expand (.payload "9Z".toList) = [.write 0x11 1, .write 0x10 2, .write 0x00 0x39, .write 0x01 0x5A] := by decide
/-- X1: the published record of the source. -/
theorem test_publish_x1 :
    publishRecord "device_1"
        { State.reset with status := 1, time := some 1668181615, stateCode := some 7, socX2 := some 199, tempX2 := some 40 }
      = some { device := "device_1", time := 1668181615, state := "error", stateOfCharge := 199 / 2, temperature := 20 } := by
  simp [publishRecord, Status.code, batteryState, BatteryState.name, socValue, tempValue]
  norm_num
/-- R167: a nonzero bit 1 of ERR_FLAGS alone gives the state-of-charge's entry; V71's value is 100.5. -/
theorem test_detail_soc :
    errorDetails { State.reset with errFlags := 0b010, socX2 := some 201 }
      = [⟨some .stateOfCharge, .number (some (201 / 2)), .allowedRange 0 100⟩] := by
  rfl
/-- X1: the payload the fields of X1 build (R89). -/
theorem test_build_x1 : hexString (buildPayload 1 1668181615 7 199 80 0) = x1.toList := by decide

/-! Witnesses: inputs that meet the hypotheses of the statements. -/

theorem holds_x1 : HoldsPayload (loaded x1) (chars x1) := ⟨by decide, by decide, by decide, by decide⟩
theorem witness_DecodeAndEncodeAgree : WellFormed (.illegalRsvd 0b11111 0b110) = true := by decide
theorem witness_IllegalCommandBytes : IsLegal (decodeByte 0x07) = false ∧ IsLegal (decodeByte 0xFF) = false := by decide
theorem witness_IllegalOpReport : IsLegal (.illegalOp7 0) = false ∧ IsLegal (.illegalRsvd 1 0) = false := by decide
theorem witness_StepRunsDecodedCommand : (ready x1 0x06).pending = .write 0x12 0x06 :: [] := by decide
theorem witness_StepRunsNextHostEvent :
    State.reset.pending = [] ∧ (State.reset.withPending [.read 0x20]).pending = .read 0x20 :: []
      ∧ (State.reset.withPending [.write 0x10 3]).pending = .write 0x10 3 :: []
      ∧ (State.reset.withPending [.reset]).pending = .reset :: [] := by
  decide
theorem witness_MissingPayloadReport : IsLegal .record = true ∧ State.reset.inPresent = 0 := by decide
theorem witness_WrongLengthReport :
    IsLegal .conv = true ∧ (loaded "F1E6E63676C7500").inPresent = 1 ∧ (loaded "F1E6E63676C7500").inLen = some 15 ∧ (15 : Byte) ≠ 16
      ∧ (loaded "F1E6E63676C750000").inLen = some 17 ∧ (17 : Byte) ≠ 16 := by
  decide
theorem witness_NonHexReport_last :
    IsLegal .time = true ∧ (loaded "F1E6E63676C7500Z").inPresent = 1 ∧ (loaded "F1E6E63676C7500Z").inLen = some 16
      ∧ (∀ j : Fin 16, (loaded "F1E6E63676C7500Z").inChar[j] = some (chars "F1E6E63676C7500Z")[j])
      ∧ ishex (chars "F1E6E63676C7500Z")[(15 : Fin 16)] = false
      ∧ ∀ j : Fin 16, j < 15 → ishex (chars "F1E6E63676C7500Z")[j] = true := by
  decide
theorem witness_NonHexReport_first :
    (∀ j : Fin 16, (loaded "G1E6E63676C75000").inChar[j] = some (chars "G1E6E63676C75000")[j])
      ∧ ishex (chars "G1E6E63676C75000")[(0 : Fin 16)] = false
      ∧ ∀ j : Fin 16, j < 0 → ishex (chars "G1E6E63676C75000")[j] = true := by
  decide
theorem witness_UnwrittenInputFault :
    IsLegal .soc = true ∧ { State.reset with inPresent := 1 }.inLen = none
      ∧ ({ State.reset with inPresent := 1, inLen := some 16 }.inLen = some 16
          ∧ ∃ k : Fin 16, { State.reset with inPresent := 1, inLen := some 16 }.inChar[k] = none)
      ∧ InputsReadable State.reset := by
  decide
theorem witness_HexDigitValues :
    (0x30 ≤ (0x30 : Byte).toNat ∧ (0x39 : Byte).toNat ≤ 0x39) ∧ (0x41 ≤ (0x41 : Byte).toNat ∧ (0x46 : Byte).toNat ≤ 0x46)
      ∧ (0x61 ≤ (0x61 : Byte).toNat ∧ (0x66 : Byte).toNat ≤ 0x66) := by
  decide
theorem witness_ConversionBytes : IsLegal .record = true ∧ HoldsPayload (loaded x1) (chars x1) := ⟨rfl, holds_x1⟩
/-- FailsStructurally, in the results of all seven legal commands. -/
theorem witness_FailsStructurally : InputsReadable State.reset ∧ ¬∃ cs : Chars, HoldsPayload State.reset cs :=
  ⟨by decide, fun ⟨_, h⟩ => absurd h.present (by decide)⟩
theorem witness_ConvResult : HoldsPayload (loaded x1) (chars x1) := holds_x1
theorem witness_DevtypeResult : HoldsPayload (loaded x1) (chars x1) := holds_x1
theorem witness_TimeResult : HoldsPayload (loaded x1) (chars x1) := holds_x1
theorem witness_StateResult :
    HoldsPayload (loaded "F1E6E63696C75000") (chars "F1E6E63696C75000") ∧ specState (chars "F1E6E63696C75000") = 9
      ∧ specState (chars "F1E6E63686C75000") = 8 :=
  ⟨⟨by decide, by decide, by decide, by decide⟩, by decide, by decide⟩
theorem witness_SocResult :
    HoldsPayload (loaded "F1E6E63676C95000") (chars "F1E6E63676C95000") ∧ specByte (chars "F1E6E63676C95000") 5 = 201
      ∧ specByte (chars "F1E6E63676C85000") 5 = 200 :=
  ⟨⟨by decide, by decide, by decide, by decide⟩, by decide, by decide⟩
theorem witness_TempResult :
    HoldsPayload (loaded "F1E6E63676C7F100") (chars "F1E6E63676C7F100") ∧ specByte (chars "F1E6E63676C7F100") 6 = 241
      ∧ specByte (chars "F1E6E63676C7F000") 6 = 240 :=
  ⟨⟨by decide, by decide, by decide, by decide⟩, by decide, by decide⟩
theorem witness_RecordResult :
    HoldsPayload (loaded "F1E6E63696FFFF00") (chars "F1E6E63696FFFF00") ∧ 8 < specState (chars "F1E6E63696FFFF00")
      ∧ HoldsPayload (loaded "F1E6E63676FFFF00") (chars "F1E6E63676FFFF00") ∧ ¬8 < specState (chars "F1E6E63676FFFF00")
      ∧ 200 < (specByte (chars "F1E6E63676FFFF00") 5).toNat :=
  ⟨⟨by decide, by decide, by decide, by decide⟩, by decide, ⟨by decide, by decide, by decide, by decide⟩, by decide, by decide⟩
theorem witness_RecordAgreesWithSingleFields : HoldsPayload (loaded x1) (chars x1) := holds_x1
theorem witness_RecordCausePriority :
    (HoldsPayload (loaded "F1E6E63696FFFF00") (chars "F1E6E63696FFFF00")
        ∧ HoldsPayload (loaded "F1E6E63676FFFF00") (chars "F1E6E63676FFFF00") ∧ HoldsPayload (loaded x1) (chars x1))
      ∧ after (execRecord (loaded "F1E6E63696FFFF00")) State.errFlags = some 0b111
      ∧ after (execRecord (loaded "F1E6E63676FFFF00")) State.errFlags = some 0b110
      ∧ after (execRecord (loaded x1)) State.errFlags = some 0 :=
  ⟨⟨witness_RecordResult.1, witness_RecordResult.2.2.1, holds_x1⟩, by decide, by decide, by decide⟩
/-- The last clause of CauseByPriority, where a payload breaks the state check and both ranges. -/
theorem witness_CauseByPriority_payload :
    HoldsPayload (loaded "F1E6E63696FFFF00") (chars "F1E6E63696FFFF00") ∧ InputsReadable (loaded "F1E6E63696FFFF00")
      ∧ (6 : Byte).toNat ≤ 6 :=
  ⟨witness_RecordResult.1, by decide, by decide⟩
theorem witness_CauseByPriority :
    InputsReadable State.reset ∧ 6 < (0x07 : Byte).toNat ∧ (0x06 : Byte).toNat ≤ 6 ∧ State.reset.inPresent = 0
      ∧ InputsReadable (loaded "F1E6E63676C7500") ∧ (loaded "F1E6E63676C7500").inPresent = 1
      ∧ (loaded "F1E6E63676C7500").inLen ≠ some 16 := by
  decide
theorem witness_CauseByPriority_nonhex :
    InputsReadable (loaded "G1E6E63676C75000") ∧ (loaded "G1E6E63676C75000").inPresent = 1
      ∧ (loaded "G1E6E63676C75000").inLen = some 16 ∧ ¬∃ cs : Chars, HoldsPayload (loaded "G1E6E63676C75000") cs := by
  refine ⟨by decide, by decide, by decide, fun ⟨cs, h⟩ => ?_⟩
  have h0 : (loaded "G1E6E63676C75000").inChar[(0 : Fin 16)] = some 0x47 := by decide
  have hc : cs[(0 : Fin 16)] = 0x47 := Option.some.inj ((h.chars 0).symm.trans h0)
  have hx := h.hex 0
  rw [hc] at hx
  exact absurd hx (by decide)
theorem witness_FieldsOfPayloadWord :
    (0x0050C77636E6E6F1 : BitVec 64).toNat = 0xF1 + 0xE6 * 2 ^ 8 + 0xE6 * 2 ^ 16 + 0x36 * 2 ^ 24 + 0x76 * 2 ^ 32 + 0xC7 * 2 ^ 40
      + 0x50 * 2 ^ 48 + 0 * 2 ^ 56 := by
  decide
theorem witness_SocScale_TempScale : (0 : Byte).toNat < (255 : Byte).toNat := by decide
/-- A state in which every output register that can hold a value together with the others holds one. -/
theorem witness_ReadGivesRegister :
    after (execRecord (loaded x1)) (fun t => (t.deviceType, t.stateCode, t.socX2, t.bytes[(7 : Fin 8)])) =
      some (some 1, some 7, some 199, some 0)
      ∧ after (execConv (loaded "G1E6E63676C75000")) (fun t => (t.errPos, t.errByte)) = some (some 0, some 0) := by
  decide
theorem witness_MultiByteReadsLittleEndian :
    after (execRecord (loaded x1)) (fun t => (t.tempX2, t.time)) = some (some 40, some 1668181615)
      ∧ (1668181615 : BitVec 36).toNat < 2 ^ 32 := by
  decide
theorem witness_InputWriteStoresValue : (0 : Byte).toNat < 2 ∧ (1 : Byte).toNat < 2 := by decide
theorem witness_HostAccessFaultCases_read :
    (∀ r : OutReg, (0x3F : Offset) ≠ r.offset) ∧ (∀ r : OutReg, (0x00 : Offset) ≠ r.offset) := by
  constructor <;> intro r <;> cases r with
  | byteAt k => revert k; decide
  | timeByte j => revert j; decide
  | _ => decide
theorem witness_HostAccessFaultCases_write :
    (∀ r : InReg, (0x13 : Offset) ≠ r.offset) ∧ (∀ r : InReg, (0x20 : Offset) ≠ r.offset) := by
  constructor <;> intro r <;> cases r with
  | inChar i => revert i; decide
  | _ => decide
theorem witness_HostAccessFaultCases_value :
    2 ≤ (0x02 : Byte).toNat ∧ 2 ≤ (0xFE : Byte).toNat ∧ outByte State.reset .deviceType = none := by decide
theorem witness_ReadOfNoValueFaults :
    State.reset.tempX2 = none ∧ State.reset.time = none ∧ State.reset.bytes[(0 : Fin 8)] = none ∧ State.reset.errPos = none
      ∧ State.reset.errByte = none ∧ State.reset.deviceType = none ∧ State.reset.stateCode = none ∧ State.reset.socX2 = none := by
  decide
theorem witness_OperationDependsOnInputsOnly :
    SameInputs (loaded x1) { loaded x1 with status := 2, errCause := 5, time := some 3 } ∧ InputsReadable (loaded x1)
      ∧ IsLegal (.illegalOp7 31) = false ∧ ¬(InputsReadable { State.reset with inPresent := 1 } ∨ IsLegal .conv = false) := by
  decide
theorem witness_ResetEffect : ((ready x1 6).withPending [.reset, .read 0x20]).pending = .reset :: [.read 0x20] := by decide
theorem witness_ObservableAfterReset :
    (OutReg.timeByte 0) ≠ .status ∧ (OutReg.timeByte 0) ≠ .errCause ∧ (OutReg.timeByte 0) ≠ .errSub ∧ (OutReg.timeByte 0) ≠ .errFlags ∧ IsLegal .temp = true := by
  decide
theorem witness_StepKeepsInvariant : Inv (ready x1 0x06) ∧ (after (step (ready x1 0x06)) State.status) = some 1 := by
  refine ⟨?_, by decide⟩
  constructor <;> simp [ready, loaded, State.withPending, State.reset, BytesClear, FieldsClear]
theorem witness_FaultsAreNeverCleared :
    step { State.reset with faults := [.unwrittenInput], pending := [.reset] } = .next { State.reset with faults := [.unwrittenInput] } :=
  rfl
theorem witness_FaultedRunNeverSucceeds :
    { State.reset with faults := [.unwrittenInput] }.faults ≠ []
      ∧ Host.Core.run core 3 { State.reset with faults := [.unwrittenInput] } = .next { State.reset with faults := [.unwrittenInput] } :=
  ⟨by decide, rfl⟩
theorem witness_PayloadLoadsInputs :
    (launch [.payload x1.toList, .exec .record]).pending = HostStmt.expand (.payload x1.toList) ++ [.write 0x12 0x06] := by decide
theorem witness_DecodeStatementPublishesFields :
    (launch [.decode (hexString (buildPayload 1 1668181615 7 199 80 0))]).pending
        = HostStmt.expand (.decode (hexString (buildPayload 1 1668181615 7 199 80 0))) ++ []
      ∧ (7 : BitVec 4).toNat ≤ 8 ∧ (200 : Byte).toNat ≤ 200 ∧ (240 : Byte).toNat ≤ 240 ∧ ¬(9 : BitVec 4).toNat ≤ 8 := by
  decide
theorem witness_PublishedRecord :
    State.reset.status ≠ 1 ∧ HoldsPayload (loaded x1) (chars x1) ∧ specState (chars x1) ≤ 8 ∧ (specByte (chars x1) 5).toNat ≤ 200
      ∧ (specByte (chars x1) 6).toNat ≤ 240 :=
  ⟨by decide, holds_x1, by decide, by decide, by decide⟩
theorem witness_PayloadEntriesNameViolations :
    IsLegal .record = true ∧ HoldsPayload (loaded "F1E6E63696FFFF00") (chars "F1E6E63696FFFF00")
      ∧ after (execRecord (loaded "F1E6E63696FFFF00")) (fun t => (errorDetails t).length) = some 3 :=
  ⟨rfl, witness_RecordResult.1, by decide⟩
/-- An empty string, and a string beyond the sixteen cells, for the two bounds of PAYLOAD's characters. -/
theorem witness_StatementsExpandAsWritten :
    (0 : Nat) < "F1E6E63676C750000".toList.length ∧ 15 < "F1E6E63676C750000".toList.length ∧ 15 < 16
      ∧ (HostStmt.expand (.payload [])).length = 2 ∧ (HostStmt.expand (.payload "F1E6E63676C750000".toList)).length = 18 := by
  decide
theorem witness_EmptyDevicePolicy :
    (Request.mk "" none).device = "" ∧ (Request.mk "device_1" (some x1.toList)).device ≠ "" := by decide

end Sys2Proof.Tests
end

section
/-! The statements about the registers (spec/10_state.md): what exec and a read can do, the invariant after each outcome of an
operation, and from it the invariant through every step. -/

namespace Sys2Proof.Machine

/-! What exec and a read can do. -/

/-- Everything an instruction can do: record UNWRITTEN_INPUT, report a STRUCTURAL error, run its body on the converted bytes, or
report ILLEGAL_OP (R100, R102, R189). -/
theorem exec_cases (i : Instr) (s : State) :
    (IsLegal i = true ∧ ¬InputsReadable s ∧ exec i s = .next (s.recordFault .unwrittenInput))
    ∨ (∃ u p, IsLegal i = true ∧ structuralCheck s = .failed u p
        ∧ exec i s = .next ((s.setCmd (encode i)).prologue.raise .structural u p 0))
    ∨ (∃ cs, IsLegal i = true ∧ HoldsPayload s cs
        ∧ exec i s = .next (bodyOf i (convertBytes cs) ((s.setCmd (encode i)).prologue.setBytes (convertBytes cs))))
    ∨ (IsLegal i = false ∧ exec i s = .next ((s.setCmd (encode i)).prologue.raise .illegalOp .none none 0)) := by
  cases hi : IsLegal i
  case false => exact .inr (.inr (.inr ⟨rfl, exec_illegal hi s⟩))
  case true =>
    rw [exec_legal hi]
    rcases operate_cases (encode i) (bodyOf i) s with ⟨hr, h⟩ | ⟨u, p, hc, h⟩ | ⟨cs, hs, h⟩
    · exact .inl ⟨rfl, hr, congrArg _ h⟩
    · exact .inr (.inl ⟨u, p, rfl, hc, congrArg _ h⟩)
    · exact .inr (.inr (.inl ⟨cs, rfl, hs, congrArg _ h⟩))

/-- The sub-cause of a failed structural check, and when it gives a position (R103 to R105). -/
theorem structuralCheck_failed_cases {s : State} {u : ErrSub} {p : Option (BitVec 4)}
    (h : structuralCheck s = .failed u p) :
    (u = .missing ∧ p = none) ∨ (u = .length ∧ p = none) ∨ (u = .nonhex ∧ ∃ q, p = some q) := by
  rcases structuralCheck_cases s with ⟨-, h'⟩ | ⟨-, -, h'⟩ | ⟨-, -, h'⟩ | ⟨-, -, -, h'⟩ | ⟨_, _, -, -, -, -, -, h'⟩
      | ⟨_, -, h'⟩ <;> rw [h] at h' <;> cases h'
  · exact .inl ⟨rfl, rfl⟩
  · exact .inr (.inl ⟨rfl, rfl⟩)
  · exact .inr (.inr ⟨rfl, _, rfl⟩)

/-- The read of an output offset whose register holds a value (R54). -/
theorem readGives_of_outByte {s : State} {r : OutReg} {v : Byte} (h : outByte s r = some v) : ReadGives s r.offset v := by
  refine ⟨s.recordRead r.offset v, ?_, by simp [SameRegisters, SameInputs, SameOutputs]⟩
  simp [memRead, regMap_outReg, h]

/-- The read of an output offset whose register holds ⊥ (R56). -/
theorem hostAccessFault_of_outByte {s : State} {r : OutReg} (h : outByte s r = none) :
    HostAccessFault s (memRead r.offset s) := by
  refine ⟨s.recordFault (.readNoValue r.offset), .readNoValue r.offset, ?_,
    by simp [SameRegisters, SameInputs, SameOutputs]⟩
  simp [memRead, regMap_outReg, h]

/-! The command byte and the command. -/

/-- The byte of a legal command is at most 6 (R71). -/
theorem encode_not_gt_of_legal {i : Instr} (h : IsLegal i = true) : ¬6 < encode i := by
  cases i with
  | illegalOp7 | illegalRsvd => simp [IsLegal] at h
  | _ => decide

/-- The byte of an illegal command that a CMD byte decodes to is above 6 (R72). -/
theorem encode_gt_of_illegal (v : Byte) (h : IsLegal (decodeByte v) = false) : 6 < encode (decodeByte v) := by
  revert v
  decide

/-! The invariant of the registers. -/

/-- The invariant speaks of the output registers and CMD only. -/
theorem Inv.of_sameOutputs {s t : State} (h : Inv s) (ho : SameOutputs s t) (hc : t.cmd = s.cmd) : Inv t := by
  obtain ⟨h1, h2, h3, h4, h5, h6, h7, h8, h9, h10, h11, h12⟩ := ho
  have fields : ∀ b, FieldsOf s b → FieldsOf t b := fun b hb => by
    constructor <;> simp only [*, hb.bytes, hb.deviceType, hb.time, hb.stateCode, hb.socX2, hb.tempX2, implies_true]
  constructor
  case results => exact fun hr => (h.results (by simpa only [h1, h2] using hr)).imp fields
  all_goals simp only [BytesClear, FieldsClear, h1, h2, h3, h4, h5, h6, h7, h8, h9, h10, h11, h12, hc]
  exacts [h.status_legal, h.cause_legal, h.idle_iff, h.error_iff, h.illegal_iff, h.sub_iff, h.pos_iff, h.byte_eq,
    h.decode_flags, h.range_flags, h.other_flags, h.no_results, h.time_high, h.temp_range]

theorem inv_reset : Inv State.reset := by
  constructor <;> simp [BytesClear, FieldsClear]

theorem inv_applyReset (s : State) : Inv s.applyReset := inv_reset.of_sameOutputs (by simp [SameOutputs]) rfl

/-- The registers after `raise ILLEGAL_OP()` (R102). -/
theorem inv_raise_illegalOp {s : State} {v : Byte} (hv : 6 < v) :
    Inv ((s.setCmd v).prologue.raise .illegalOp .none none 0) := by
  constructor
  case illegal_iff => simpa [ErrCause.code] using hv
  all_goals simp [ErrCause.code, ErrSub.code, BytesClear, FieldsClear]

/-- The registers after a structural error (R103 to R105). -/
theorem inv_raise_structural {s : State} {v : Byte} {u : ErrSub} {p : Option (BitVec 4)} (hv : ¬6 < v)
    (hu : (u = .missing ∧ p = none) ∨ (u = .length ∧ p = none) ∨ (u = .nonhex ∧ ∃ q, p = some q)) :
    Inv ((s.setCmd v).prologue.raise .structural u p 0) := by
  rcases hu with ⟨rfl, rfl⟩ | ⟨rfl, rfl⟩ | ⟨rfl, q, rfl⟩ <;> constructor
  case inl.illegal_iff | inr.inl.illegal_iff | inr.inr.illegal_iff => simpa [ErrCause.code] using hv
  all_goals simp [ErrCause.code, ErrSub.code, BytesClear, FieldsClear]

/-- TIME[35:32] are 0 where the fields stand (R35). -/
theorem FieldsOf.time_lt {s : State} {b : Payload} (h : FieldsOf s b) {t : BitVec 36} (ht : s.time = some t) :
    t.toNat < 2 ^ 32 := by
  rw [h.time] at ht
  split at ht <;> cases ht
  rw [BitVec.toNat_setWidth_of_le (by decide)]
  exact (timeOf b).isLt

/-- TEMP_X2 lies in -40..215 where the fields stand (R38). -/
theorem FieldsOf.temp_bounds {s : State} {b : Payload} (h : FieldsOf s b) {v : BitVec 9} (hv : s.tempX2 = some v) :
    -40 ≤ v.toInt ∧ v.toInt ≤ 215 := by
  rw [h.tempX2] at hv
  split at hv <;> cases hv
  have := (rawTempOf b).isLt
  rw [tempX2Of_toInt]
  omega

/-- The error report as the prologue leaves it (R101). -/
abbrev ReportClear (s : State) : Prop :=
  s.errCause = 0 ∧ s.errSub = 0 ∧ s.errPos = none ∧ s.errByte = none ∧ s.errFlags = 0

theorem FieldsOf.conclude {s : State} {b : Payload} (h : FieldsOf s b) (f : BitVec 3) : FieldsOf (s.conclude f) b := by
  constructor <;> simp [h.bytes, h.deviceType, h.time, h.stateCode, h.socX2, h.tempX2]

/-- The end of a body establishes the invariant, whatever flags the checks give: the clauses about the results follow from the
fields, the clauses about the report from the three ways to conclude (R163, R185). -/
theorem inv_conclude {s : State} {b : Payload} {v : Byte} (hf : FieldsOf s b) (hr : ReportClear s) (hc : s.cmd = some v)
    (hv : ¬6 < v) (f : BitVec 3) : Inv (s.conclude f) := by
  have ht := hf.conclude f
  obtain ⟨hcause, hsub, hpos, hbyte, hflags⟩ := hr
  constructor
  case results => exact fun _ => ⟨b, ht⟩
  case time_high => exact fun _ => ht.time_lt
  case temp_range => exact fun _ => ht.temp_bounds
  all_goals rcases s.conclude_cases f with ⟨rfl, h⟩ | ⟨hb, h⟩ | ⟨h0, hb, h⟩
  all_goals simp_all [ErrCause.code, ErrSub.code]

/-! The bodies of the legal commands. -/

/-- The field registers that the body of a command writes. -/
def extractOf : Instr → Payload → State → State
  | .devtype, b, s => s.extractDevtype b
  | .time, b, s => s.extractTime b
  | .state, b, s => s.extractState b
  | .soc, b, s => s.extractSoc b
  | .temp, b, s => s.extractTemp b
  | .record, b, s => ((((s.extractDevtype b).extractTime b).extractState b).extractSoc b).extractTemp b
  | .conv, _, s | .illegalOp7 _, _, s | .illegalRsvd _ _, _, s => s

/-- The flags of the checks that the body of a command makes. -/
def flagsOf : Instr → Payload → BitVec 3
  | .state, b => stateInvalidFlag (stateCodeOf b)
  | .soc, b => socRangeFlag (socOf b)
  | .temp, b => tempRangeFlag (rawTempOf b)
  | .record, b => recordFlags b
  | .conv, _ | .devtype, _ | .time, _ | .illegalOp7 _, _ | .illegalRsvd _ _, _ => 0

/-- A body writes its fields and concludes with the flags of its checks; `finish_ok` alone is the conclusion without a flag. -/
theorem bodyOf_eq_conclude {i : Instr} (hi : IsLegal i = true) (b : Payload) (s : State) :
    bodyOf i b s = (extractOf i b s).conclude (flagsOf i b) := by
  cases i with
  | illegalOp7 | illegalRsvd => simp [IsLegal] at hi
  | _ => rfl

theorem extractOf_report (i : Instr) (b : Payload) (s : State) :
    (extractOf i b s).errCause = s.errCause ∧ (extractOf i b s).errSub = s.errSub ∧ (extractOf i b s).errPos = s.errPos
      ∧ (extractOf i b s).errByte = s.errByte ∧ (extractOf i b s).errFlags = s.errFlags := by
  cases i <;> simp [extractOf]

theorem extractOf_cmd (i : Instr) (b : Payload) (s : State) : (extractOf i b s).cmd = s.cmd := by
  cases i <;> rfl

/-- On the state that the prologue and the conversion leave, the registers that a command writes are its own (R101, R107). -/
theorem fieldsOf_extractOf {i : Instr} (hi : IsLegal i = true) (b : Payload) (s : State) :
    FieldsOf (extractOf i b ((s.setCmd (encode i)).prologue.setBytes b)) b := by
  cases i with
  | illegalOp7 | illegalRsvd => simp [IsLegal] at hi
  | _ => constructor <;> simp [extractOf, encode]

/-- The body of a legal command establishes the invariant, whatever the payload is. -/
theorem inv_bodyOf {i : Instr} (hi : IsLegal i = true) (b : Payload) (s : State) :
    Inv (bodyOf i b ((s.setCmd (encode i)).prologue.setBytes b)) := by
  rw [bodyOf_eq_conclude hi]
  refine inv_conclude (fieldsOf_extractOf hi b s) ?report ?cmd (encode_not_gt_of_legal hi) _
  case report => simp [ReportClear, extractOf_report]
  case cmd => simp [extractOf_cmd]

/-- Every command that CMD can start keeps the invariant. -/
theorem inv_exec_decodeByte {s t : State} (v : Byte) (h : Inv s) (he : exec (decodeByte v) s = .next t) : Inv t := by
  rcases exec_cases (decodeByte v) s with ⟨-, -, e⟩ | ⟨u, p, hi, hc, e⟩ | ⟨cs, hi, -, e⟩ | ⟨hi, e⟩ <;>
    obtain rfl := Host.Outcome.next.inj (e.symm.trans he)
  · exact h.of_sameOutputs (by simp [SameOutputs]) rfl
  · exact inv_raise_structural (encode_not_gt_of_legal hi) (structuralCheck_failed_cases hc)
  · exact inv_bodyOf hi (convertBytes cs) s
  · exact inv_raise_illegalOp (encode_gt_of_illegal v hi)

/-! What a step leaves alone. -/

/-- A host event that neither writes CMD nor resets the block keeps the output registers and CMD (R53, R54, R55). -/
theorem hostEvent_keeps_outputs (e : HostEvent) (s : State) :
    (∃ v, e = .write 0x12 v) ∨ e = .reset ∨ ∃ t, hostEvent e s = .next t ∧ SameOutputs s t ∧ t.cmd = s.cmd := by
  rcases hostEvent_cases e s with ⟨f, h⟩ | ⟨a, v, h⟩ | ⟨i, v, h⟩ | ⟨v, h⟩ | ⟨v, h⟩ | ⟨v, h, -⟩ | ⟨h, -⟩
  case inr.inr.inr.inr.inr.inl => exact .inl ⟨v, h⟩
  case inr.inr.inr.inr.inr.inr => exact .inr (.inl h)
  all_goals exact .inr (.inr ⟨_, h, by simp [SameOutputs], rfl⟩)

/-- Every host event keeps the invariant. -/
theorem inv_hostEvent {s t : State} (e : HostEvent) (h : Inv s) (he : hostEvent e s = .next t) : Inv t := by
  rcases hostEvent_keeps_outputs e s with ⟨v, rfl⟩ | rfl | ⟨u, hu, ho, hc⟩
  · exact inv_exec_decodeByte v h he
  · obtain rfl := Host.Outcome.next.inj he
    exact inv_applyReset s
  · obtain rfl := Host.Outcome.next.inj (hu.symm.trans he)
    exact h.of_sameOutputs ho hc

/-- Settles O43: a host event keeps the invariant, and the accesses to come are no part of it. -/
theorem stepKeepsInvariant : Obligations.StepKeepsInvariant := by
  intro s t h hst
  rcases step_cases s with ⟨-, e⟩ | ⟨e, rest, -, he⟩
  · obtain rfl := Host.Outcome.next.inj (e.symm.trans hst)
    exact h
  · have hp : Inv (s.withPending rest) := h.of_sameOutputs (by simp [SameOutputs]) rfl
    exact inv_hostEvent e hp (he.symm.trans hst)

/-- Settles O42: no register holds a value that a clause could speak against. -/
theorem resetHoldsInvariant : Obligations.ResetHoldsInvariant := inv_reset

/-- Settles O46: only a write of CMD and a reset are not among the events that keep the outputs. -/
theorem outputsChangeOnlyAtCommandOrReset : Obligations.OutputsChangeOnlyAtCommandOrReset := by
  intro s
  rcases step_cases s with ⟨-, h⟩ | ⟨e, rest, hp, h⟩
  · exact ⟨s, h, .inr (.inr (by simp [SameOutputs]))⟩
  · rcases hostEvent_keeps_outputs e (s.withPending rest) with ⟨v, rfl⟩ | rfl | ⟨t, ht, ho, hc⟩
    · obtain ⟨t, ht⟩ := exec_next (decodeByte v) (s.withPending rest)
      exact ⟨t, h.trans ht, .inl ⟨v, rest, hp⟩⟩
    · exact ⟨_, h, .inr (.inl ⟨rest, hp⟩)⟩
    · exact ⟨t, h.trans ht, .inr (.inr ⟨ho, hc⟩)⟩

/-- Settles O38: no register update of an operation touches an input or the host's side, and UNWRITTEN_INPUT appends its fault. -/
theorem operationFrame : Obligations.OperationFrame := by
  intro i s
  rcases exec_cases i s with ⟨-, -, e⟩ | ⟨u, p, -, -, e⟩ | ⟨cs, -, -, e⟩ | ⟨-, e⟩
  case inr.inr.inl =>
    obtain ⟨hin, ⟨hpending, hfaults, hreads⟩, -, -⟩ :=
      bodyOf_frame i (convertBytes cs) ((s.setCmd (encode i)).prologue.setBytes (convertBytes cs))
    exact ⟨_, e, hin, hpending, hreads, by simp [hfaults]⟩
  all_goals exact ⟨_, e, by simp [SameInputs], rfl, rfl, by simp⟩

/-! Multi-byte registers. -/

/-- The two bytes of TEMP_X2's 16-bit word put together (R52). -/
theorem tempWord_bytes (x : BitVec 9) : (tempWord x).extractLsb' 8 8 ++ (tempWord x).extractLsb' 0 8 = tempWord x := by
  rw [BitVec.extractLsb'_append_extractLsb'_eq_extractLsb' (rfl : 8 = 0 + 8), BitVec.extractLsb'_eq_self]

/-- Byte j of TIME's 40-bit value as a number (R52). -/
theorem timeByte_eq_ofNat (x : BitVec 36) (j : Nat) :
    (x.setWidth 40).extractLsb' (8 * j) 8 = BitVec.ofNat 8 (x.toNat / 2 ^ (8 * j)) := by
  apply BitVec.eq_of_toNat_eq
  rw [BitVec.extractLsb'_toNat, BitVec.toNat_setWidth_of_le (by decide), BitVec.toNat_ofNat, Nat.shiftRight_eq_div_pow]

/-- Settles O34: each offset reads the byte that the map presents, and the bytes recombine. -/
theorem multiByteReadsLittleEndian : Obligations.MultiByteReadsLittleEndian := by
  refine fun s => ⟨fun x hx => ?_, fun x hx => ?_⟩
  · refine ⟨(tempWord x).extractLsb' 0 8, (tempWord x).extractLsb' 8 8,
      readGives_of_outByte (r := .tempLow) (by simp [outByte, hx]),
      readGives_of_outByte (r := .tempHigh) (by simp [outByte, hx]), ?_⟩
    rw [tempWord_bytes]
    exact BitVec.toInt_signExtend_of_le (by decide)
  · have hread : ∀ j : Fin 5,
        ReadGives s (BitVec.ofNat 6 (0x38 + j.val)) (BitVec.ofNat 8 (x.toNat / 2 ^ (8 * j.val))) := fun j =>
      readGives_of_outByte (r := .timeByte j) (by simp [outByte, hx, timeByte_eq_ofNat])
    refine ⟨hread, fun hlt => ?_⟩
    have h4 : ReadGives s 0x3C (BitVec.ofNat 8 (x.toNat / 2 ^ 32)) := hread 4
    rwa [Nat.div_eq_of_lt hlt] at h4

/-! The step and the reset. -/

/-- Settles O5: the next event is the write of CMD, and that write is exec of the decoded byte. -/
theorem stepRunsDecodedCommand : Obligations.StepRunsDecodedCommand := by
  intro s v rest h
  rw [step_event h]
  exact memWrite_cmd v (s.withPending rest)

theorem applyReset_applyReset (s : State) : s.applyReset.applyReset = s.applyReset := rfl

/-- Settles O40, register by register on the reset state. -/
theorem resetEffect : Obligations.ResetEffect := by
  intro s rest h
  refine ⟨(s.withPending rest).applyReset, step_event h, ?_⟩
  simp [BytesClear, FieldsClear, applyReset_applyReset]

/-- Right after reset only STATUS, ERR_CAUSE, ERR_SUB and ERR_FLAGS hold a value (R41). -/
theorem outByte_reset_eq_none {r : OutReg} (h1 : r ≠ .status) (h2 : r ≠ .errCause) (h3 : r ≠ .errSub)
    (h4 : r ≠ .errFlags) : outByte State.reset r = none := by
  cases r <;> simp_all [outByte]

/-- Settles O41: the reads follow what the outputs hold at reset, and IN_PRESENT = 0 fails the structural check. -/
theorem observableAfterReset : Obligations.ObservableAfterReset := by
  refine ⟨⟨readGives_of_outByte (r := .status) rfl, readGives_of_outByte (r := .errCause) rfl,
    readGives_of_outByte (r := .errSub) rfl, readGives_of_outByte (r := .errFlags) rfl⟩, ?_, ?_⟩
  · exact fun r h1 h2 h3 h4 => hostAccessFault_of_outByte (outByte_reset_eq_none h1 h2 h3 h4)
  · intro i hi
    refine ⟨_, exec_legal hi _, ?_⟩
    rw [operate_failed _ _ (structuralCheck_missing rfl)]
    exact ⟨rfl, rfl, rfl, rfl⟩

end Sys2Proof.Machine
end

section
/-! The statements about the register map and the bus accesses (spec/20_memory.md): reads and writes offset by offset, the
host-access faults, operations as functions of the inputs, and the accesses of PAYLOAD. -/

namespace Sys2Proof.Machine

/-! Reads and writes. -/

/-- A write of a writable register's own offset is the write of that register (R51, R55). -/
theorem memWrite_inReg (r : InReg) (v : Byte) (s : State) : memWrite r.offset v s = writeInput r v s := by
  simp [memWrite, regMap_inReg]

/-- Bits 7:1 of a byte are 0 exactly when the byte is 0 or 1. -/
theorem upperBits_eq_zero_iff (v : Byte) : v.extractLsb' 1 7 = 0 ↔ v.toNat < 2 := by
  rw [← BitVec.toNat_inj, BitVec.extractLsb'_toNat, Nat.shiftRight_eq_div_pow]
  have := v.isLt
  simp only [BitVec.ofNat_eq_ofNat, BitVec.toNat_ofNat]
  omega

/-- A write of 0 or 1 to IN_PRESENT stores the bit (R55). -/
theorem memWrite_inPresent_of_lt {v : Byte} (h : v.toNat < 2) (s : State) :
    memWrite 0x11 v s = .next (s.setInPresent (v.extractLsb' 0 1)) := by
  rw [show (0x11 : Offset) = InReg.inPresent.offset from rfl, memWrite_inReg]
  exact if_neg (not_not_intro ((upperBits_eq_zero_iff v).2 h))

/-- A write of 2 or more to IN_PRESENT is a host-access fault (R56). -/
theorem memWrite_inPresent_of_le {v : Byte} (h : 2 ≤ v.toNat) (s : State) :
    memWrite 0x11 v s = .next (s.recordFault (.inPresentUpperBits v)) := by
  rw [show (0x11 : Offset) = InReg.inPresent.offset from rfl, memWrite_inReg]
  exact if_pos fun h0 => absurd ((upperBits_eq_zero_iff v).1 h0) (by omega)

/-- Recording a fault of the bus has no effect but the record (R56, R188). -/
theorem hostAccessFault_recordFault (s : State) {f : Fault} (hf : f ≠ .unwrittenInput) :
    HostAccessFault s (.next (s.recordFault f)) :=
  ⟨_, f, rfl, hf, by simp [SameRegisters, SameInputs, SameOutputs]⟩

/-- A read of an offset that is no readable register (R56). -/
theorem hostAccessFault_memRead {a : Offset} (h : ∀ r : OutReg, a ≠ r.offset) (s : State) :
    HostAccessFault s (memRead a s) := by
  unfold memRead
  rcases hm : regMap a with _ | r | r
  · exact hostAccessFault_recordFault s (by simp)
  · exact hostAccessFault_recordFault s (by simp)
  · exact absurd (offset_of_regMap hm).symm (h r)

/-- A write of an offset that is no writable register (R56). -/
theorem hostAccessFault_memWrite {a : Offset} (h : ∀ r : InReg, a ≠ r.offset) (v : Byte) (s : State) :
    HostAccessFault s (memWrite a v s) := by
  unfold memWrite
  rcases hm : regMap a with _ | r | r
  · exact hostAccessFault_recordFault s (by simp)
  · exact absurd (offset_of_regMap hm).symm (h r)
  · exact hostAccessFault_recordFault s (by simp)

/-- Settles O35: each write is the one register update, whose frame the field lemmas give. -/
theorem inputWriteStoresValue : Obligations.InputWriteStoresValue := by
  refine fun s v => ⟨fun i => ?_, ?_, fun hv => ?_⟩
  · refine ⟨s.setInChar i v, memWrite_inReg (.inChar i) v s, by simp, fun j hj => ?_, by simp [SameOutputs, SameHostSide]⟩
    have hne : i.val ≠ j.val := fun h => hj (Fin.ext h.symm)
    simp [Vector.getElem_set_ne, hne]
  · exact ⟨s.setInLen v, memWrite_inReg .inLen v s, by simp [SameOutputs, SameHostSide]⟩
  · refine ⟨_, memWrite_inPresent_of_lt hv s, ?_, by simp [SameOutputs, SameHostSide]⟩
    rw [State.setInPresent_inPresent, BitVec.extractLsb'_toNat]
    exact Nat.mod_eq_of_lt hv

/-- Settles O36: the map sends no such offset to a register of the access's kind, so the access only records its fault. -/
theorem hostAccessFaultCases : Obligations.HostAccessFaultCases := by
  refine fun s => ⟨fun a h => hostAccessFault_memRead h s, fun a v h => hostAccessFault_memWrite h v s, fun v hv => ?_,
    fun r h => hostAccessFault_of_outByte h⟩
  rw [memWrite_inPresent_of_le hv]
  exact hostAccessFault_recordFault s (by simp)

/-- Settles O37: every offset of such a register presents no byte. -/
theorem readOfNoValueFaults : Obligations.ReadOfNoValueFaults := by
  refine fun s => ⟨fun h => ⟨?_, ?_⟩, fun h j => ?_, fun k h => ?_, fun h => ?_, fun h => ?_, fun h => ?_, fun h => ?_,
    fun h => ?_⟩
  · exact hostAccessFault_of_outByte (r := .tempLow) (by simp [outByte, h])
  · exact hostAccessFault_of_outByte (r := .tempHigh) (by simp [outByte, h])
  · exact hostAccessFault_of_outByte (r := .timeByte j) (by simp [outByte, h])
  · exact hostAccessFault_of_outByte (r := .byteAt k) h
  · exact hostAccessFault_of_outByte (r := .errPos) (by simp [outByte, h])
  · exact hostAccessFault_of_outByte (r := .errByte) (by simp [outByte, h])
  · exact hostAccessFault_of_outByte (r := .deviceType) (by simp [outByte, h])
  · exact hostAccessFault_of_outByte (r := .stateCode) (by simp [outByte, h])
  · exact hostAccessFault_of_outByte (r := .socX2) h

/-- Settles O33: the byte that each offset presents is the register's value, zero-extended. -/
theorem readGivesRegister : Obligations.ReadGivesRegister := by
  refine fun s => ⟨?_, ?_, ?_, fun x h => ?_, fun x h => ?_, ?_, fun k x h => ?_, fun x h => ?_, fun x h => ?_,
    fun x h => ?_⟩
  · exact readGives_of_outByte (r := .status) (by simp [outByte])
  · exact readGives_of_outByte (r := .errCause) (by simp [outByte])
  · exact readGives_of_outByte (r := .errSub) (by simp [outByte])
  · exact readGives_of_outByte (r := .errPos) (by simp [outByte, h])
  · exact readGives_of_outByte (r := .errByte) (by simp [outByte, h])
  · exact readGives_of_outByte (r := .errFlags) (by simp [outByte])
  · exact readGives_of_outByte (r := .byteAt k) h
  · exact readGives_of_outByte (r := .deviceType) (by simp [outByte, h])
  · exact readGives_of_outByte (r := .stateCode) (by simp [outByte, h])
  · exact readGives_of_outByte (r := .socX2) h

/-- Settles O32: the map inverts the offsets of the registers, and the unmapped offsets are checked one by one. -/
theorem registerMapOffsets : Obligations.RegisterMapOffsets := by
  refine ⟨fun i => regMap_inReg (.inChar i), rfl, rfl, rfl, rfl, rfl, rfl, rfl, rfl, rfl,
    fun k => regMap_outReg (.byteAt k), rfl, rfl, rfl, rfl, rfl, fun j => regMap_outReg (.timeByte j),
    regMap_outReg, regMap_inReg, ?_⟩
  decide

/-- Settles O6: the step of an idle machine, and the step as its next event. -/
theorem stepRunsNextHostEvent : Obligations.StepRunsNextHostEvent :=
  ⟨fun _ => step_idle, fun _ _ => ⟨fun _ => step_event, fun _ _ => step_event, step_event⟩⟩

/-! Operations as functions of the inputs. -/

/-- The structural check reads the inputs only (R106). -/
theorem structuralCheck_of_sameInputs {s s' : State} (h : SameInputs s s') : structuralCheck s' = structuralCheck s := by
  obtain ⟨hchar, hlen, hpresent⟩ := h
  simp only [structuralCheck, hchar, hlen, hpresent]

theorem not_inputsReadable_of_sameInputs {s s' : State} (h : SameInputs s s') (hr : ¬InputsReadable s) :
    ¬InputsReadable s' := by
  rw [← structuralCheck_unwritten_iff] at hr ⊢
  exact (structuralCheck_of_sameInputs h).trans hr

theorem HoldsPayload.of_sameInputs {s s' : State} {cs : Chars} (h : SameInputs s s') (hs : HoldsPayload s cs) :
    HoldsPayload s' cs := by
  obtain ⟨hchar, hlen, hpresent⟩ := h
  exact ⟨hpresent.trans hs.present, hlen.trans hs.length, by simpa only [hchar] using hs.chars, hs.hex⟩

/-- After the prologue a body leaves the same outputs whatever the registers held: every register but STATUS was cleared, and the
conclusion writes STATUS (R101, R185). -/
theorem bodyOf_prologue_sameOutputs {i : Instr} (hi : IsLegal i = true) (b : Payload) (v : Byte) (s s' : State) :
    SameOutputs (bodyOf i b ((s.setCmd v).prologue.setBytes b)) (bodyOf i b ((s'.setCmd v).prologue.setBytes b)) := by
  rw [bodyOf_eq_conclude hi, bodyOf_eq_conclude hi]
  cases i <;> simp [SameOutputs, extractOf]

/-- The next state of a legal command whose structural check fails (R103 to R105). -/
theorem exec_of_failed {i : Instr} {s : State} {u : ErrSub} {p : Option (BitVec 4)} (hi : IsLegal i = true)
    (hc : structuralCheck s = .failed u p) :
    exec i s = .next ((s.setCmd (encode i)).prologue.raise .structural u p 0) := by
  rw [exec_legal hi, operate_failed _ _ hc]

/-- Where the command reads no unwritten cell, CMD and the outputs that it leaves depend on the inputs alone (R57). -/
theorem exec_sameOutputs_of_sameInputs {i : Instr} {s s' : State} (h : SameInputs s s')
    (hq : InputsReadable s ∨ IsLegal i = false) :
    ∃ t t', exec i s = .next t ∧ exec i s' = .next t' ∧ SameOutputs t t' ∧ t'.cmd = t.cmd := by
  rcases exec_cases i s with ⟨hi, hr, -⟩ | ⟨u, p, hi, hc, e⟩ | ⟨cs, hi, hs, e⟩ | ⟨hi, e⟩
  · simp [hi, hr] at hq
  · have e' := exec_of_failed hi ((structuralCheck_of_sameInputs h).trans hc)
    exact ⟨_, _, e, e', by simp [SameOutputs]⟩
  · have e' := exec_of_holds hi (hs.of_sameInputs h)
    refine ⟨_, _, e, e', bodyOf_prologue_sameOutputs hi _ _ s s', ?_⟩
    simp [bodyOf_frame]
  · exact ⟨_, _, e, exec_illegal hi s', by simp [SameOutputs, illegalOperation]⟩

/-- Where it must read an unwritten cell, the command changes no register (R189). -/
theorem exec_sameRegisters_of_unwritten {i : Instr} {s : State} (hi : IsLegal i = true) (hr : ¬InputsReadable s) :
    ∃ t, exec i s = .next t ∧ SameRegisters s t :=
  ⟨_, exec_unwritten hi hr, by simp [SameRegisters, SameInputs, SameOutputs]⟩

/-- A second run of a command finds the inputs of the first, and so changes no register (R42, R57). -/
theorem exec_idempotent (i : Instr) (s : State) :
    ∃ t t', exec i s = .next t ∧ exec i t = .next t' ∧ SameRegisters t t' := by
  obtain ⟨t, ht, hin, -⟩ := operationFrame i s
  by_cases hq : InputsReadable s ∨ IsLegal i = false
  · obtain ⟨u, t', hu, ht', hout, hcmd⟩ := exec_sameOutputs_of_sameInputs hin hq
    obtain ⟨w, hw, hin', -⟩ := operationFrame i t
    obtain rfl := Host.Outcome.next.inj (hu.symm.trans ht)
    obtain rfl := Host.Outcome.next.inj (hw.symm.trans ht')
    exact ⟨u, w, ht, ht', hin', hcmd, hout⟩
  · obtain ⟨hr, hi⟩ := not_or.1 hq
    obtain ⟨t', ht', hsame⟩ :=
      exec_sameRegisters_of_unwritten (by simpa using hi) (not_inputsReadable_of_sameInputs hin hr)
    exact ⟨t, t', ht, ht', hsame⟩

/-- Settles O39: with readable inputs the prologue has cleared what the registers held; else no register is written at all. -/
theorem operationDependsOnInputsOnly : Obligations.OperationDependsOnInputsOnly := by
  refine ⟨fun i s s' h => ?_, exec_idempotent, fun a s => ?_⟩
  · by_cases hq : InputsReadable s ∨ IsLegal i = false
    · obtain ⟨t, t', ht, ht', hout, hcmd⟩ := exec_sameOutputs_of_sameInputs h hq
      exact ⟨t, t', ht, ht', fun _ => ⟨hout, hcmd⟩, fun hn => absurd hq hn⟩
    · obtain ⟨hr, hi⟩ := not_or.1 hq
      have hi : IsLegal i = true := by simpa using hi
      obtain ⟨t, ht, hs⟩ := exec_sameRegisters_of_unwritten hi hr
      obtain ⟨t', ht', hs'⟩ := exec_sameRegisters_of_unwritten hi (not_inputsReadable_of_sameInputs h hr)
      exact ⟨t, t', ht, ht', fun hq' => absurd hq' hq, fun _ => ⟨hs, hs'⟩⟩
  · rcases memRead_cases a s with ⟨f, h⟩ | ⟨v, h⟩ <;>
      exact ⟨_, h, by simp [SameRegisters, SameInputs, SameOutputs]⟩

/-! The accesses of PAYLOAD. -/

/-- The writes of IN_CHAR for a string whose first character goes to position `k` (R58). -/
def charWrites (cs : List Char) (k : Nat) : List HostEvent :=
  (cs.zipIdx k).map fun p => .write (BitVec.ofNat 6 p.2) (charCode p.1)

theorem expand_payload (str : List Char) :
    HostStmt.expand (.payload str)
      = [.write 0x11 1, .write 0x10 (BitVec.ofNat 8 (min str.length 255))] ++ charWrites (str.take 16) 0 := rfl

@[simp] theorem length_charWrites (cs : List Char) (k : Nat) : (charWrites cs k).length = cs.length := by
  simp [charWrites]

@[simp] theorem charWrites_cons (c : Char) (cs : List Char) (k : Nat) :
    charWrites (c :: cs) k = .write (BitVec.ofNat 6 k) (charCode c) :: charWrites cs (k + 1) := rfl

theorem getElem?_charWrites (cs : List Char) (k i : Nat) :
    (charWrites cs k)[i]? = cs[i]?.map fun c => .write (BitVec.ofNat 6 (k + i)) (charCode c) := by
  simp [charWrites, List.getElem?_zipIdx, Function.comp_def]

/-- Settles O47: PAYLOAD's character writes by length and position; every other statement by its definition. -/
theorem statementsExpandAsWritten : Obligations.StatementsExpandAsWritten := by
  refine ⟨fun str => ⟨charWrites (str.take 16) 0, expand_payload str, ?_, fun i h hi => ?_⟩, rfl, rfl, rfl, rfl, rfl, rfl,
    rfl, rfl, fun _ => rfl, rfl, rfl, rfl, rfl, rfl, rfl, rfl, fun _ => rfl, rfl, rfl, rfl, rfl, rfl, fun _ => rfl⟩
  · rw [length_charWrites, List.length_take, Nat.min_comm]
  · simp [getElem?_charWrites, List.getElem?_take_of_lt hi, h]

/-- Nothing but the cells of IN_CHAR and the accesses to come differs. -/
structure SameButChars (s t : State) : Prop where
  inLen : t.inLen = s.inLen
  inPresent : t.inPresent = s.inPresent
  cmd : t.cmd = s.cmd
  outputs : SameOutputs s t
  faults : t.faults = s.faults
  reads : t.reads = s.reads

/-- The step whose event is the write of a writable register (R55, R59). -/
theorem step_write {s : State} {r : InReg} {v : Byte} {rest : List HostEvent}
    (h : s.pending = .write r.offset v :: rest) : step s = writeInput r v (s.withPending rest) := by
  rw [step_event h]
  exact memWrite_inReg r v _

/-- What cell `i` of IN_CHAR holds once a string has been written from position `k` on, over the value `old`. -/
def cellAfter (cs : List Char) (k i : Nat) (old : Option Byte) : Option Byte :=
  if k ≤ i then (cs[i - k]?.map charCode).or old else old

@[simp] theorem cellAfter_nil (k i : Nat) (old : Option Byte) : cellAfter [] k i old = old := by
  simp [cellAfter]

/-- The first character goes to its own cell, the others to the cells after it. -/
theorem cellAfter_cons (c : Char) (cs : List Char) (k i : Nat) (old : Option Byte) :
    cellAfter (c :: cs) k i old = cellAfter cs (k + 1) i (if k = i then some (charCode c) else old) := by
  unfold cellAfter
  rcases Nat.lt_trichotomy k i with h | rfl | h
  · rw [if_pos h.le, if_pos (Nat.succ_le_of_lt h), if_neg h.ne, show i - k = i - (k + 1) + 1 by omega,
      List.getElem?_cons_succ]
  · simp
  · rw [if_neg (by omega), if_neg (by omega), if_neg h.ne']

/-- Only the first sixteen characters have a cell. -/
theorem cellAfter_take (str : List Char) (i : Fin 16) (old : Option Byte) :
    cellAfter (str.take 16) 0 i.val old = if h : i.val < str.length then some (charCode str[i.val]) else old := by
  rw [cellAfter, if_pos (Nat.zero_le _), Nat.sub_zero, List.getElem?_take_of_lt i.isLt]
  split
  case isTrue h => simp [h]
  case isFalse h => simp [Nat.not_lt.1 h]

/-- The steps of the character writes store each character in its own cell, from position `k` on (R55, R58). -/
theorem run_charWrites (cs : List Char) (k : Nat) (s : State) (rest : List HostEvent) (hk : k + cs.length ≤ 16)
    (hp : s.pending = charWrites cs k ++ rest) :
    ∃ t : State, Host.Core.run core cs.length s = .next t ∧ t.pending = rest ∧ SameButChars s t
      ∧ ∀ i : Fin 16, t.inChar[i] = cellAfter cs k i.val s.inChar[i] := by
  induction cs generalizing k s with
  | nil => exact ⟨s, rfl, hp, ⟨rfl, rfl, rfl, by simp [SameOutputs], rfl, rfl⟩, by simp⟩
  | cons c cs ih =>
    rw [List.length_cons] at hk
    have hk16 : k < 16 := by omega
    obtain ⟨t, hrun, hrest, hsame, hchars⟩ := ih (k + 1)
      ((s.withPending (charWrites cs (k + 1) ++ rest)).setInChar ⟨k, hk16⟩ (charCode c)) (by omega) rfl
    refine ⟨t, (run_succ _ (step_write (r := .inChar ⟨k, hk16⟩) hp)).trans hrun, hrest,
      ⟨hsame.inLen, hsame.inPresent, hsame.cmd, hsame.outputs, hsame.faults, hsame.reads⟩, fun i => ?_⟩
    rw [hchars i, cellAfter_cons, State.setInChar_inChar, State.withPending_inChar, Fin.getElem_fin, Vector.getElem_set,
      Fin.getElem_fin]

/-- The two steps that write IN_PRESENT = 1 and IN_LEN = n (R58). -/
theorem run_presentAndLength {s : State} {n : Byte} {rest : List HostEvent}
    (hp : s.pending = .write 0x11 1 :: .write 0x10 n :: rest) :
    ∃ u : State, (∀ k, Host.Core.run core (k + 2) s = Host.Core.run core k u) ∧ u.pending = rest ∧ u.inPresent = 1
      ∧ u.inLen = some n ∧ u.inChar = s.inChar ∧ u.cmd = s.cmd ∧ SameOutputs s u ∧ u.faults = s.faults
      ∧ u.reads = s.reads := by
  have h1 : step s = .next ((s.withPending (.write 0x10 n :: rest)).setInPresent 1) :=
    (step_event hp).trans (memWrite_inPresent_of_lt (v := 1) (by decide) _)
  have h2 := step_write (s := (s.withPending (.write 0x10 n :: rest)).setInPresent 1) (r := .inLen) rfl
  exact ⟨_, fun k => (run_succ (k + 1) h1).trans (run_succ k h2), by simp [SameOutputs]⟩

/-- Settles O48: the steps that write IN_PRESENT and IN_LEN, and then those of the characters. -/
theorem payloadLoadsInputs : Obligations.PayloadLoadsInputs := by
  intro s str rest hp
  obtain ⟨u, hrun, hpending, hpresent, hlen, hchar, hcmd, hout, hfaults, hreads⟩ := run_presentAndLength hp
  obtain ⟨t, hrun', hrest, hsame, hchars⟩ := run_charWrites (str.take 16) 0 u rest (by simp) hpending
  refine ⟨t, ?run, hsame.inPresent.trans hpresent, hsame.inLen.trans hlen, fun i => ?cell, hsame.cmd.trans hcmd,
    ?outputs, hrest, hsame.faults.trans hfaults, hsame.reads.trans hreads⟩
  case run => rw [Nat.add_comm, hrun, Nat.min_comm, ← List.length_take, hrun']
  case cell => rw [hchars i, hchar, cellAfter_take]
  case outputs => simpa only [SameOutputs, hout] using hsame.outputs

end Sys2Proof.Machine
end

section
/-! The statements about the encodings (spec/30_encoding.md): the command byte both ways, the hex digits, the field position
table and its inverse, and DECODE of a payload string built from field values. -/

namespace Sys2Proof.Machine

/-! The command byte. -/

/-- The two bit fields of a command byte put together again (R70). -/
@[simp] theorem rsvdField_append_opField (v : Byte) : rsvdField v ++ opField v = v := by
  exact BitVec.extractLsb'_append_extractLsb' (w := 5) (len := 3) (x := v)

theorem opField_toNat (v : Byte) : (opField v).toNat = v.toNat % 8 := by
  rw [opField, BitVec.extractLsb'_toNat, Nat.shiftRight_zero]

theorem rsvdField_toNat (v : Byte) : (rsvdField v).toNat = v.toNat / 8 := by
  have := v.isLt
  rw [rsvdField, BitVec.extractLsb'_toNat, Nat.shiftRight_eq_div_pow, Nat.mod_eq_of_lt (by omega)]

/-- A byte above 6 belongs to the row OP = 7, or else to the row RSVD ≠ 0 (R72). -/
theorem decodeByte_of_gt {v : Byte} (h : 6 < v.toNat) :
    decodeByte v = if opField v = 7 then .illegalOp7 (rsvdField v) else .illegalRsvd (rsvdField v) (opField v) := by
  have hne : ∀ c : Byte, c.toNat ≤ 6 → v ≠ c := fun c hc hv => by rw [hv] at h; omega
  rw [decodeByte, if_neg (hne 0 (by decide)), if_neg (hne 1 (by decide)), if_neg (hne 2 (by decide)),
    if_neg (hne 3 (by decide)), if_neg (hne 4 (by decide)), if_neg (hne 5 (by decide)), if_neg (hne 6 (by decide))]

/-- Everything a CMD byte can stand for: a legal command whose byte it is, or one of the two illegal rows with the byte's own
fields (R71, R72). -/
theorem decodeByte_cases (v : Byte) :
    (v.toNat ≤ 6 ∧ IsLegal (decodeByte v) = true ∧ encode (decodeByte v) = v)
    ∨ (6 < v.toNat ∧ opField v = 7 ∧ decodeByte v = .illegalOp7 (rsvdField v))
    ∨ (6 < v.toNat ∧ opField v ≠ 7 ∧ rsvdField v ≠ 0 ∧ decodeByte v = .illegalRsvd (rsvdField v) (opField v)) := by
  rcases Nat.lt_or_ge 6 v.toNat with h | h
  · have hd := decodeByte_of_gt h
    split at hd
    case isTrue h7 => exact .inr (.inl ⟨h, h7, hd⟩)
    case isFalse h7 =>
      refine .inr (.inr ⟨h, h7, fun h0 => h7 (BitVec.eq_of_toNat_eq ?_), hd⟩)
      have hr : v.toNat / 8 = 0 := (rsvdField_toNat v).symm.trans (congrArg BitVec.toNat h0)
      have ho : v.toNat % 8 = 7 := by omega
      exact (opField_toNat v).trans ho
  · have legal : ∀ v : Byte, v.toNat ≤ 6 → IsLegal (decodeByte v) = true ∧ encode (decodeByte v) = v := by decide
    exact .inl ⟨h, legal v h⟩

/-- Decoding the command byte of a well-formed command gives the command, row by row of the opcode table. -/
theorem decodeByte_encode {i : Instr} (h : WellFormed i = true) : decodeByte (encode i) = i := by
  cases i with
  | conv => exact Laws.RoundTrip.conv h
  | devtype => exact Laws.RoundTrip.devtype h
  | time => exact Laws.RoundTrip.time h
  | state => exact Laws.RoundTrip.state h
  | soc => exact Laws.RoundTrip.soc h
  | temp => exact Laws.RoundTrip.temp h
  | record => exact Laws.RoundTrip.record h
  | illegalOp7 rsvd => exact Laws.RoundTrip.illegalOp7 rsvd h
  | illegalRsvd rsvd op => exact Laws.RoundTrip.illegalRsvd rsvd op h

theorem wellFormed_of_legal {i : Instr} (h : IsLegal i = true) : WellFormed i = true := by
  cases i with
  | illegalOp7 | illegalRsvd => simp [IsLegal] at h
  | _ => rfl

/-- Every byte is the command byte of the well-formed command that it decodes to (R72). -/
theorem wellFormed_and_encode_decodeByte (v : Byte) : WellFormed (decodeByte v) = true ∧ encode (decodeByte v) = v := by
  rcases decodeByte_cases v with ⟨-, hi, he⟩ | ⟨-, h7, hd⟩ | ⟨-, h7, h0, hd⟩
  · exact ⟨wellFormed_of_legal hi, he⟩
  · rw [hd, encode, ← h7, rsvdField_append_opField]
    exact ⟨rfl, rfl⟩
  · rw [hd, encode, rsvdField_append_opField]
    exact ⟨Bool.and_eq_true_iff.2 ⟨decide_eq_true h0, decide_eq_true h7⟩, rfl⟩

/-- Settles O2: the round trip of each row of the opcode table, and that of each case of the decoder. -/
theorem decodeAndEncodeAgree : Obligations.DecodeAndEncodeAgree := by
  refine ⟨fun i rest h => ?_, wellFormed_and_encode_decodeByte⟩
  rw [decode, decodeByte_encode h]

/-- Settles O1: the decoder computes on each of the nine bytes. -/
theorem commandBytesDecodeAsWritten : Obligations.CommandBytesDecodeAsWritten :=
  ⟨rfl, rfl, rfl, rfl, rfl, rfl, rfl, rfl, rfl⟩

/-- The legal command bytes are 0x00 to 0x06 (R72). -/
theorem isLegal_decodeByte_iff (v : Byte) : IsLegal (decodeByte v) = true ↔ v.toNat ≤ 6 := by
  rcases decodeByte_cases v with ⟨hv, hi, -⟩ | ⟨hv, -, hd⟩ | ⟨hv, -, -, hd⟩
  · exact iff_of_true hi hv
  · simp [hd, IsLegal, hv]
  · simp [hd, IsLegal, hv]

/-- OP = 7 or RSVD ≠ 0 holds of the bytes above 6 exactly (R72). -/
theorem op_seven_or_rsvd_iff (v : Byte) : (v &&& 0x07 = 0x07 ∨ v >>> 3 ≠ 0) ↔ 6 < v.toNat := by
  revert v
  decide

/-- Settles O3: both criteria say that the byte is above 6, and an illegal command reads no input. -/
theorem illegalCommandBytes : Obligations.IllegalCommandBytes := by
  refine fun v => ⟨?_, isLegal_decodeByte_iff v, fun hi s => ?_⟩
  · rw [op_seven_or_rsvd_iff, ← Bool.not_eq_true, isLegal_decodeByte_iff, Nat.not_le]
  · exact ⟨_, exec_illegal hi s, by simp [illegalOperation, ErrCause.code, SameHostSide]⟩

/-! The hex digits. -/

/-- Settles O12: the byte comparisons of the model are those of the codes' numbers; hexval is checked code by code. -/
theorem hexDigitValues : Obligations.HexDigitValues := by
  refine fun c => ⟨by simp [ishex, BitVec.le_def, or_assoc], ?_⟩
  revert c
  decide

/-! The field position table. -/

/-- Settles O24: the rows are the definitions of the fields, and TIME's rows cut its fragments out again. -/
theorem fieldPositionTable : Obligations.FieldPositionTable := by
  refine fun b => ⟨rfl, ?_, ?_, ?_, ?_, ?_, rfl, BitVec.extractLsb'_eq_self, BitVec.extractLsb'_eq_self⟩
  all_goals
    apply BitVec.eq_of_toNat_eq
    simp only [timeOf_toNat, BitVec.extractLsb'_toNat, Nat.shiftRight_eq_div_pow]
    omega

/-- Settles O25: each field and its bit range of the word are the same number. -/
theorem fieldsOfPayloadWord : Obligations.FieldsOfPayloadWord := by
  intro b w hw
  obtain ⟨hdev, -, -, -, -, -, hst, hsoc, htemp⟩ := fieldPositionTable b
  refine ⟨?_, ?_, ?_, ?_, ?_⟩
  all_goals
    apply BitVec.eq_of_toNat_eq
    simp only [hdev, timeOf_toNat, hst, hsoc, htemp, BitVec.extractLsb'_toNat, Nat.shiftRight_eq_div_pow]
    omega

/-- The two nibbles of a byte that stands in a wider word from bit `lo` on. -/
theorem nibbles_of_extractLsb'_eq {w lo : Nat} {x : BitVec w} {y : Byte} (h : x.extractLsb' lo 8 = y) :
    x.extractLsb' (lo + 4) 4 = y.extractLsb' 4 4 ∧ x.extractLsb' lo 4 = y.extractLsb' 0 4 := by
  subst h
  constructor <;> ext i hi
  · simp [show 4 + i < 8 by omega, Nat.add_assoc]
  · simp [show i < 8 by omega]

/-- The high nibble of a converted byte is the value of the first character of its pair (R107). -/
theorem highNibble_convertBytes (cs : Chars) (k : Fin 8) :
    (convertBytes cs)[k].extractLsb' 4 4 = hexval cs[2 * k.val] := by
  rw [convertBytes, Fin.getElem_fin, Vector.getElem_ofFn]
  exact BitVec.extractLsb'_append_eq_left

/-- The low nibble of a converted byte is the value of the second character of its pair (R107). -/
theorem lowNibble_convertBytes (cs : Chars) (k : Fin 8) :
    (convertBytes cs)[k].extractLsb' 0 4 = hexval cs[2 * k.val + 1] := by
  rw [convertBytes, Fin.getElem_fin, Vector.getElem_ofFn]
  exact BitVec.extractLsb'_append_eq_right

/-- Settles O26: the table gives each nibble's byte, and the conversion the characters of that byte. -/
theorem nibbleOfCharacter : Obligations.NibbleOfCharacter := by
  intro cs b
  obtain ⟨hdev, ht1, ht2, ht3, ht4, ht5, hst, hsoc, htemp⟩ := fieldPositionTable b
  obtain ⟨h1hi, h1lo⟩ := nibbles_of_extractLsb'_eq ht2
  obtain ⟨h2hi, h2lo⟩ := nibbles_of_extractLsb'_eq ht3
  obtain ⟨h3hi, h3lo⟩ := nibbles_of_extractLsb'_eq ht4
  have hi := highNibble_convertBytes cs
  have lo := lowNibble_convertBytes cs
  rw [hsoc, htemp]
  exact ⟨ht1.trans (hi 0), hdev.trans (lo 0), h1hi.trans (hi 1), h1lo.trans (lo 1), h2hi.trans (hi 2), h2lo.trans (lo 2),
    h3hi.trans (hi 3), h3lo.trans (lo 3), hst.trans (hi 4), ht5.trans (lo 4), hi 5, lo 5, hi 6, lo 6, hi 7, lo 7⟩

/-! The inverse of the table. -/

section
variable (dev : BitVec 4) (t : BitVec 32) (st : BitVec 4) (rs rt b7 : Byte)

theorem deviceTypeOf_buildPayload : deviceTypeOf (buildPayload dev t st rs rt b7) = dev :=
  BitVec.extractLsb'_append_eq_right

theorem stateCodeOf_buildPayload : stateCodeOf (buildPayload dev t st rs rt b7) = st :=
  BitVec.extractLsb'_append_eq_left

theorem socOf_buildPayload : socOf (buildPayload dev t st rs rt b7) = rs := BitVec.extractLsb'_eq_self

theorem rawTempOf_buildPayload : rawTempOf (buildPayload dev t st rs rt b7) = rt := BitVec.extractLsb'_eq_self

/-- The fragments that R89 distributes over the bytes sum up to the timestamp. -/
theorem timeOf_buildPayload : timeOf (buildPayload dev t st rs rt b7) = t := by
  apply BitVec.eq_of_toNat_eq
  rw [timeOf_toNat]
  simp only [buildPayload, Vector.getElem_mk, List.getElem_toArray, List.getElem_cons_zero, List.getElem_cons_succ,
    append_nibbles_toNat, BitVec.extractLsb'_toNat, Nat.shiftRight_eq_div_pow]
  omega

end

/-- Settles O27: the bytes are R89's by definition, the two of them put together from nibbles as a shift and an or. -/
theorem payloadOfFieldsRoundTrip : Obligations.PayloadOfFieldsRoundTrip := fun dev t st rs rt b7 =>
  ⟨append_nibbles _ _, rfl, rfl, rfl, append_nibbles _ _, rfl, rfl, rfl, deviceTypeOf_buildPayload dev t st rs rt b7,
    timeOf_buildPayload dev t st rs rt b7, stateCodeOf_buildPayload dev t st rs rt b7, socOf_buildPayload dev t st rs rt b7,
    rawTempOf_buildPayload dev t st rs rt b7⟩

theorem nibbles_append (x : Byte) : x.extractLsb' 4 4 ++ x.extractLsb' 0 4 = x :=
  BitVec.extractLsb'_append_extractLsb' (w := 4) (len := 4) (x := x)

/-- Settles O28: by the table each byte is built from its own bits. -/
theorem fieldsDeterminePayload : Obligations.FieldsDeterminePayload := by
  intro b
  obtain ⟨hdev, ht1, ht2, ht3, ht4, ht5, hst, hsoc, htemp⟩ := fieldPositionTable b
  simp only [buildPayload, hdev, ht1, ht2, ht3, ht4, ht5, hst, hsoc, htemp, nibbles_append]
  refine Vector.ext fun i hi => ?_
  interval_cases i <;> simp

/-! The payload string of a payload. -/

/-- The nibble that character `i` of the payload string of `b` carries, high nibble first (R107). -/
def nibbleAt (b : Payload) (i : Fin 16) : BitVec 4 :=
  b[i.val / 2].extractLsb' (if i.val % 2 = 0 then 4 else 0) 4

/-- The character codes of the payload string of `b`. -/
def codesOf (b : Payload) : Chars := Vector.ofFn fun i => charCode (hexDigit (nibbleAt b i))

theorem hexString_eq_map (b : Payload) : hexString b = (List.finRange 16).map fun i => hexDigit (nibbleAt b i) := rfl

@[simp] theorem length_hexString (b : Payload) : (hexString b).length = 16 := by
  rw [hexString_eq_map, List.length_map, List.length_finRange]

theorem charCode_getElem_hexString (b : Payload) (i : Fin 16) :
    charCode ((hexString b)[i.val]'(by simp)) = (codesOf b)[i] := by
  simp [hexString_eq_map, codesOf]

/-- The host's digits pass the character check. -/
theorem ishex_charCode_hexDigit (n : BitVec 4) : ishex (charCode (hexDigit n)) = true := by
  revert n
  decide

/-- The conversion takes a digit of the host back to its value. -/
theorem hexval_charCode_hexDigit (n : BitVec 4) : hexval (charCode (hexDigit n)) = n := by
  revert n
  decide

/-- The payload string of a payload converts back to it. -/
theorem convertBytes_codesOf (b : Payload) : convertBytes (codesOf b) = b := by
  refine Vector.ext fun k hk => ?_
  have hlow : (2 * k + 1) / 2 = k := by omega
  simp [convertBytes, payloadByte, codesOf, hexval_charCode_hexDigit, nibbleAt, hlow, nibbles_append]

/-- With the payload string of `b` loaded, the inputs hold its codes. -/
theorem holdsPayload_codesOf {s : State} {b : Payload} (hp : s.inPresent = 1)
    (hl : s.inLen = some (BitVec.ofNat 8 (min (hexString b).length 255)))
    (hc : ∀ i : Fin 16, ∀ h : i.val < (hexString b).length, s.inChar[i] = some (charCode (hexString b)[i.val])) :
    HoldsPayload s (codesOf b) := by
  refine ⟨hp, ?_, fun i => ?_, fun i => ?_⟩
  · rw [hl, length_hexString]
    rfl
  · rw [← charCode_getElem_hexString]
    exact hc i (by simp)
  · simp [codesOf, ishex_charCode_hexDigit]

/-! RECORD and the record that the host publishes. -/

/-- No check of RECORD sets a bit exactly when the three values are in range (R128, R140, R145). -/
theorem recordFlags_eq_zero_iff (b : Payload) :
    recordFlags b = 0 ↔ (stateCodeOf b).toNat ≤ 8 ∧ (socOf b).toNat ≤ 200 ∧ (rawTempOf b).toNat ≤ 240 := by
  rw [recordFlags, stateInvalidFlag_toNat, socRangeFlag_toNat, tempRangeFlag_toNat]
  split_ifs <;> simp <;> omega

/-- What RECORD leaves on a well-formed payload string: the five fields, and OK exactly when no check sets a bit (R160, R163). -/
theorem exec_record_of_holds {s : State} {cs : Chars} (h : HoldsPayload s cs) :
    ∃ t, exec .record s = .next t ∧ SameHostSide s t
      ∧ t.deviceType = some (deviceTypeOf (convertBytes cs)) ∧ t.time = some ((timeOf (convertBytes cs)).setWidth 36)
      ∧ t.stateCode = some (stateCodeOf (convertBytes cs)) ∧ t.socX2 = some (socOf (convertBytes cs))
      ∧ t.tempX2 = some (tempX2Of (rawTempOf (convertBytes cs)))
      ∧ (recordFlags (convertBytes cs) = 0 → ReportsOk t) ∧ (recordFlags (convertBytes cs) ≠ 0 → t.status = 2) := by
  refine ⟨_, exec_of_holds rfl h, ?_⟩
  generalize convertBytes cs = b
  rw [bodyOf_eq_conclude rfl]
  simp +contextual [extractOf, flagsOf, SameHostSide, ReportsOk]

/-- Every code from 0 to 8 names a state (R129). -/
theorem exists_batteryState {code : BitVec 4} (h : code.toNat ≤ 8) : ∃ name, batteryState code = some name := by
  have key : ∀ code : BitVec 4, code.toNat ≤ 8 → (batteryState code).isSome = true := by decide
  exact Option.isSome_iff_exists.1 (key code h)

theorem publishRecord_of_ok {s : State} {t : BitVec 36} {code : BitVec 4} {name : BatteryState} {soc : Byte}
    {temp : BitVec 9} (device : String) (hok : s.status = 1) (ht : s.time = some t) (hc : s.stateCode = some code)
    (hn : batteryState code = some name) (hs : s.socX2 = some soc) (hx : s.tempX2 = some temp) :
    publishRecord device s = some
      { device := device, time := t.toNat, state := name.name, stateOfCharge := socValue soc,
        temperature := tempValue temp } := by
  simp [publishRecord, Status.code, hok, ht, hc, hn, hs, hx]

theorem publishRecord_of_status_ne {s : State} (device : String) (h : s.status ≠ 1) : publishRecord device s = none :=
  if_neg h

theorem tempValue_tempX2Of (rt : Byte) : tempValue (tempX2Of rt) = (rt.toNat : ℚ) / 2 - 20 := by
  rw [tempValue, tempX2Of_toInt]
  push_cast
  ring

/-- Every step goes on (R100, R188). -/
theorem step_next (s : State) : ∃ t, step s = .next t :=
  (outputsChangeOnlyAtCommandOrReset s).imp fun _ h => h.1

/-- Steps of a run, one part after the other. -/
theorem run_add {s t : State} {k : Nat} (m : Nat) (h : Host.Core.run core k s = .next t) :
    Host.Core.run core (k + m) s = Host.Core.run core m t := by
  induction k generalizing s with
  | zero =>
    obtain rfl := Host.Outcome.next.inj h
    rw [Nat.zero_add]
  | succ k ih =>
    obtain ⟨u, hu⟩ := step_next s
    rw [run_succ k hu] at h
    rw [Nat.add_right_comm, run_succ (k + m) hu, ih h]

/-- Settles O49: PAYLOAD loads the payload string, which converts back to the payload, and RECORD decodes that. -/
theorem decodeStatementPublishesFields : Obligations.DecodeStatementPublishesFields := by
  intro s rest dev tm st rs rt b7 device hp
  obtain ⟨u, hrun, hpresent, hlen, hchars, -, -, hpending, hfaults, hreads⟩ :=
    payloadLoadsInputs s (hexString (buildPayload dev tm st rs rt b7)) (.write 0x12 6 :: rest)
      (hp.trans (List.append_assoc _ _ _))
  have hholds : HoldsPayload (u.withPending rest) (codesOf (buildPayload dev tm st rs rt b7)) :=
    holdsPayload_codesOf hpresent hlen fun i h => (hchars i).trans (dif_pos h)
  obtain ⟨t, hexec, ⟨hpending', hfaults', hreads'⟩, hdev, htime, hstate, hsoc, htemp, hok, herr⟩ :=
    exec_record_of_holds hholds
  rw [convertBytes_codesOf] at hdev htime hstate hsoc htemp hok herr
  rw [recordFlags_eq_zero_iff] at hok
  rw [ne_eq, recordFlags_eq_zero_iff] at herr
  simp only [deviceTypeOf_buildPayload, timeOf_buildPayload, stateCodeOf_buildPayload, socOf_buildPayload,
    rawTempOf_buildPayload] at hdev htime hstate hsoc htemp hok herr
  have hstep : step u = .next t := (stepRunsDecodedCommand u 6 rest hpending).trans hexec
  rw [length_hexString] at hrun
  refine ⟨t, (run_add 1 hrun).trans (run_succ 0 hstep), hpending', hfaults'.trans hfaults, hreads'.trans hreads, hdev,
    htime, hstate, hsoc, htemp, ?_⟩
  split
  case isTrue hr =>
    obtain ⟨name, hname⟩ := exists_batteryState hr.1
    refine ⟨hok hr, name, hname, ?_⟩
    rw [publishRecord_of_ok device (hok hr).1 htime hstate hname hsoc htemp, tempValue_tempX2Of,
      BitVec.toNat_setWidth_of_le (by decide)]
    rfl
  case isFalse hr =>
    exact ⟨herr hr, publishRecord_of_status_ne device (by simp [herr hr])⟩

end Sys2Proof.Machine
end

section
/-! The statements about the operation step (spec/40_hex_conversion.md): the reports of the failed structural check and of an
illegal command, UNWRITTEN_INPUT, the converted bytes, CONV, and the priority of the causes. -/

namespace Sys2Proof.Machine

/-! The reports that are raised right after the prologue. -/

section
variable {s t : State} {v : Byte} {c : ErrCause} {u : ErrSub} {p : Option (BitVec 4)}

/-- An error raised right after the prologue leaves CMD written, no result, and the inputs and the host's side as they were
(R101, R184). -/
theorem raise_prologue_frame (h : t = (s.setCmd v).prologue.raise c u p 0) :
    t.cmd = some v ∧ BytesClear t ∧ FieldsClear t ∧ SameInputs s t ∧ SameHostSide s t := by
  subst h
  simp [BytesClear, FieldsClear, SameInputs, SameHostSide]

/-- The report of an error raised without a position: the prologue has cleared ERR_POS and ERR_BYTE (R101, R184). -/
theorem raise_prologue_reportsError (h : t = (s.setCmd v).prologue.raise c u none 0) :
    ReportsError t c.code u.code 0 := by
  subst h
  simp [ReportsError]

end

/-- ERR_BYTE is the half of the position (R31). -/
theorem errByteOf_ofFin (p : Fin 16) : errByteOf (BitVec.ofFin p) = BitVec.ofNat 3 (p.val / 2) := by
  revert p
  decide

/-- Settles O8: the structural check ends at the presence check, and its report is raised right after the prologue. -/
theorem missingPayloadReport : Obligations.MissingPayloadReport := fun _ _ hi hp =>
  ⟨_, exec_of_failed hi (structuralCheck_missing hp), raise_prologue_reportsError rfl, raise_prologue_frame rfl⟩

/-- Settles O9: the structural check ends at the length check, before any character is read. -/
theorem wrongLengthReport : Obligations.WrongLengthReport := fun _ _ _ hi hp hl hn =>
  ⟨_, exec_of_failed hi (structuralCheck_length hp hl hn), raise_prologue_reportsError rfl, raise_prologue_frame rfl⟩

/-- Settles O10: the structural check finds the lowest offending position, which the report carries. -/
theorem nonHexReport : Obligations.NonHexReport := by
  intro i s cs p hi hp hl hc hx hlow
  refine ⟨_, exec_of_failed hi (structuralCheck_nonhex hp hl hc hx hlow), rfl, rfl, rfl, rfl, ?pos, ?byte,
    raise_prologue_frame rfl⟩
  case pos => exact congrArg some (BitVec.eq_of_toNat_eq (by simp))
  case byte => exact congrArg some (errByteOf_ofFin p)

/-- Settles O4: an illegal command raises right after the prologue and reads no input. -/
theorem illegalOpReport : Obligations.IllegalOpReport := fun _ s hi =>
  ⟨_, exec_illegal hi s, raise_prologue_reportsError (c := .illegalOp) (u := .none) rfl, raise_prologue_frame rfl⟩

/-- Settles O7: a host event, or none, always ends in a next state. -/
theorem stepAlwaysGoesOn : Obligations.StepAlwaysGoesOn := step_next

/-! UNWRITTEN_INPUT. -/

/-- A cell without a value that the structural check must read makes the inputs unreadable (R106). -/
theorem not_inputsReadable {s : State} (hp : s.inPresent = 1)
    (h : s.inLen = none ∨ s.inLen = some 16 ∧ ∃ k : Fin 16, s.inChar[k] = none) : ¬InputsReadable s := by
  intro hr
  obtain ⟨hlen, hchars⟩ := hr hp
  rcases h with hl | ⟨hl, k, hk⟩
  · simp [hl] at hlen
  · have := hchars hl k
    simp [hk] at this

/-- On readable inputs every way a command can end leaves the recorded faults alone (R189). -/
theorem exec_faults_of_readable (i : Instr) {s : State} (hr : InputsReadable s) :
    ∃ t, exec i s = .next t ∧ t.faults = s.faults := by
  rcases exec_cases i s with ⟨-, hn, -⟩ | ⟨_, _, -, -, e⟩ | ⟨cs, -, -, e⟩ | ⟨-, e⟩
  · exact absurd hr hn
  · exact ⟨_, e, rfl⟩
  · obtain ⟨-, ⟨-, hfaults, -⟩, -⟩ :=
      bodyOf_frame i (convertBytes cs) ((s.setCmd (encode i)).prologue.setBytes (convertBytes cs))
    exact ⟨_, e, hfaults⟩
  · exact ⟨_, e, rfl⟩

/-- Settles O11: an unwritten cell that must be read stops the operation before its first register write. -/
theorem unwrittenInputFault : Obligations.UnwrittenInputFault := by
  refine ⟨fun i s hi hp h => ?_, fun i s => exec_faults_of_readable i⟩
  exact ⟨_, exec_unwritten hi (not_inputsReadable hp h), by simp [SameRegisters, SameInputs, SameOutputs]⟩

/-! The converted bytes. -/

/-- Whatever its body does, a legal command leaves the bytes of R107, its own byte in CMD, and the inputs and the host's side as
they were. -/
theorem exec_holdsBytes {i : Instr} {s t : State} {cs : Chars} (hi : IsLegal i = true) (h : HoldsPayload s cs)
    (ht : exec i s = .next t) : t.cmd = some (encode i) ∧ HoldsBytes t cs ∧ SameInputs s t ∧ SameHostSide s t := by
  obtain rfl := Host.Outcome.next.inj ((exec_of_holds hi h).symm.trans ht)
  obtain ⟨hin, hhost, hcmd, hbytes⟩ :=
    bodyOf_frame i (convertBytes cs) ((s.setCmd (encode i)).prologue.setBytes (convertBytes cs))
  refine ⟨hcmd, fun k => ?_, hin, hhost⟩
  rw [hbytes]
  exact getElem_some_convertBytes cs k

/-- Byte k as a number: the first character of the pair counts sixteenfold (R107). -/
theorem specByte_toNat (cs : Chars) (k : Fin 8) :
    (specByte cs k).toNat = 16 * (hexval cs[2 * k.val]).toNat + (hexval cs[2 * k.val + 1]).toNat := by
  rw [specByte, ← append_nibbles, append_nibbles_toNat]

/-- Settles O13: no body touches the bytes that the conversion wrote. -/
theorem conversionBytes : Obligations.ConversionBytes := by
  intro i s cs hi h
  have e := exec_of_holds hi h
  obtain ⟨-, hbytes, -⟩ := exec_holdsBytes hi h e
  exact ⟨_, e, fun k => ⟨specByte cs k, hbytes k, rfl, specByte_toNat cs k⟩⟩

/-- Settles O14: the body of CONV only completes, on registers that the prologue cleared. -/
theorem convResult : Obligations.ConvResult := by
  refine ⟨rfl, failsStructurally_of_legal rfl, fun s cs h => ?_⟩
  have e := exec_of_holds (i := .conv) rfl h
  obtain ⟨hcmd, hbytes, hin, hhost⟩ := exec_holdsBytes rfl h e
  exact ⟨_, e, ⟨rfl, rfl, rfl, rfl, rfl, rfl⟩, hcmd, hbytes, ⟨rfl, rfl, rfl, rfl, rfl⟩, hin, hhost⟩

/-! One cause. -/

/-- With all cells readable, sixteen characters that are no well-formed payload string have a lowest offending one (R105). -/
theorem exists_lowest_nonhex {s : State} (hr : InputsReadable s) (hp : s.inPresent = 1) (hl : s.inLen = some 16)
    (hn : ¬∃ cs : Chars, HoldsPayload s cs) :
    ∃ (cs : Chars) (p : Fin 16), (∀ j : Fin 16, s.inChar[j] = some cs[j]) ∧ ishex cs[p] = false
      ∧ ∀ j : Fin 16, j < p → ishex cs[j] = true := by
  rcases structuralCheck_cases s with ⟨h0, -⟩ | ⟨-, -, h⟩ | ⟨-, ⟨n, hl', hne⟩, -⟩ | ⟨-, -, -, h⟩
      | ⟨cs, p, -, -, hc, hx, hlow, -⟩ | ⟨cs, hs, -⟩
  · simp [hp] at h0
  · exact absurd hr ((structuralCheck_unwritten_iff s).1 h)
  · exact absurd (Option.some.inj (hl'.symm.trans hl)) hne
  · exact absurd hr ((structuralCheck_unwritten_iff s).1 h)
  · exact ⟨cs, p, hc, hx, hlow⟩
  · exact absurd ⟨cs, hs⟩ hn

/-- The cause that a legal command reports on a well-formed payload string: DECODE before RANGE, each only from the checks that
the command makes (R128, R140, R145, R163). -/
theorem exec_errCause_of_holds {i : Instr} {s : State} {cs : Chars} (hi : IsLegal i = true) (h : HoldsPayload s cs) :
    ∃ t, exec i s = .next t ∧ t.errCause =
      if (encode i = 3 ∨ encode i = 6) ∧ 8 < specState cs then 2
      else if (encode i = 4 ∨ encode i = 6) ∧ 200 < (specByte cs 5).toNat
          ∨ (encode i = 5 ∨ encode i = 6) ∧ 240 < (specByte cs 6).toNat then 3
      else 0 := by
  refine ⟨_, exec_of_holds hi h, ?_⟩
  rw [bodyOf_eq_conclude hi, State.conclude_errCause]
  cases i with
  | illegalOp7 | illegalRsvd => simp [IsLegal] at hi
  | conv | devtype | time => simp [extractOf, flagsOf, encode]
  | state =>
    rw [flagsOf, stateInvalidFlag_convertBytes]
    by_cases hst : 8 < specState cs <;> simp [extractOf, encode, hst]
  | soc =>
    rw [flagsOf, socOf_convertBytes, socRangeFlag_toNat]
    by_cases hsoc : 200 < (specByte cs 5).toNat <;> simp [extractOf, encode, hsoc]
  | temp =>
    rw [flagsOf, rawTempOf_convertBytes, tempRangeFlag_toNat]
    by_cases htemp : 240 < (specByte cs 6).toNat <;> simp [extractOf, encode, htemp]
  | record =>
    rw [flagsOf, recordFlags_convertBytes]
    by_cases hst : 8 < specState cs <;> by_cases hsoc : 200 < (specByte cs 5).toNat <;>
      by_cases htemp : 240 < (specByte cs 6).toNat <;> simp [extractOf, encode, hst, hsoc, htemp]

/-- What is known of some next state of a command holds of the one it answers. -/
theorem of_exec_next {i : Instr} {s t : State} {P : State → Prop} (ht : exec i s = .next t)
    (h : ∃ u, exec i s = .next u ∧ P u) : P t := by
  obtain ⟨u, hu, hP⟩ := h
  obtain rfl := Host.Outcome.next.inj (hu.symm.trans ht)
  exact hP

/-- Settles O23: each clause is the report of its own condition. -/
theorem causeByPriority : Obligations.CauseByPriority := by
  intro v s hr
  obtain ⟨t, ht⟩ := exec_next (decodeByte v) s
  have legal : v.toNat ≤ 6 → IsLegal (decodeByte v) = true := (isLegal_decodeByte_iff v).2
  refine ⟨t, ht, fun hv => ?illegal, fun hv hp => ?missing, fun hv hp hl => ?length, fun hv hp hl hn => ?nonhex,
    fun cs hs hv => ?payload⟩
  case illegal =>
    have hi : IsLegal (decodeByte v) = false := by
      rwa [← Bool.not_eq_true, isLegal_decodeByte_iff, Nat.not_le]
    obtain ⟨⟨-, hcause, -⟩, -⟩ := of_exec_next ht (illegalOpReport _ s hi)
    exact hcause
  case missing =>
    obtain ⟨⟨-, hcause, hsub, -⟩, -⟩ := of_exec_next ht (missingPayloadReport _ s (legal hv) hp)
    exact ⟨hcause, hsub⟩
  case length =>
    obtain ⟨n, hn⟩ := Option.isSome_iff_exists.1 (hr hp).1
    have hne : n ≠ 16 := fun h => hl (h ▸ hn)
    obtain ⟨⟨-, hcause, hsub, -⟩, -⟩ := of_exec_next ht (wrongLengthReport _ s n (legal hv) hp hn hne)
    exact ⟨hcause, hsub⟩
  case nonhex =>
    obtain ⟨cs, p, hc, hx, hlow⟩ := exists_lowest_nonhex hr hp hl hn
    obtain ⟨-, hcause, hsub, -⟩ := of_exec_next ht (nonHexReport _ s cs p (legal hv) hp hl hc hx hlow)
    exact ⟨hcause, hsub⟩
  case payload =>
    have hcause := of_exec_next ht (exec_errCause_of_holds (legal hv) hs)
    rwa [(wellFormed_and_encode_decodeByte v).2] at hcause

end Sys2Proof.Machine
end

section
/-! The statements about the field operations (spec/41_field_extraction.md): the field registers and the report of a legal command
on a well-formed payload string, DEVTYPE, TIME, STATE, and the names of the state codes. -/

namespace Sys2Proof.Machine

/-! What a legal command leaves on a well-formed payload string. -/

section
variable {i : Instr} {s t : State} {cs : Chars}

/-- The field registers: each holds the spec's value after its own command and after RECORD, and no value after any other
(R101, R120, R124, R128, R140, R145, R160). -/
theorem exec_fields (hi : IsLegal i = true) (h : HoldsPayload s cs) (ht : exec i s = .next t) :
    t.deviceType = (if encode i = 1 ∨ encode i = 6 then some ((specByte cs 0 &&& 0x0F).setWidth 4) else none)
    ∧ t.time = (if encode i = 2 ∨ encode i = 6 then some ((timeOf (convertBytes cs)).setWidth 36) else none)
    ∧ t.stateCode = (if encode i = 3 ∨ encode i = 6 then some (BitVec.ofNat 4 (specState cs)) else none)
    ∧ t.socX2 = (if encode i = 4 ∨ encode i = 6 then some (specByte cs 5) else none)
    ∧ t.tempX2 = (if encode i = 5 ∨ encode i = 6 then some (tempX2Of (specByte cs 6)) else none) := by
  obtain ⟨hcmd, -⟩ := exec_holdsBytes hi h ht
  obtain rfl := Host.Outcome.next.inj ((exec_of_holds hi h).symm.trans ht)
  have hf := (fieldsOf_extractOf hi (convertBytes cs) s).conclude (flagsOf i (convertBytes cs))
  rw [← bodyOf_eq_conclude hi] at hf
  obtain ⟨-, hdev, htime, hstate, hsoc, htemp⟩ := hf
  simp only [hcmd, Option.some.injEq, deviceTypeOf_convertBytes, stateCodeOf_convertBytes, socOf_convertBytes,
    rawTempOf_convertBytes] at hdev htime hstate hsoc htemp
  exact ⟨hdev, htime, hstate, hsoc, htemp⟩

/-- The report: OK without a flag, DECODE where STATE_INVALID is set, RANGE otherwise (R128, R140, R145, R163, R185). -/
theorem exec_report (hi : IsLegal i = true) (h : HoldsPayload s cs) (ht : exec i s = .next t) {f : BitVec 3}
    (hf : flagsOf i (convertBytes cs) = f) :
    if f = 0 then ReportsOk t else ReportsError t (if f.getLsbD 0 = true then 2 else 3) 0 f := by
  obtain rfl := Host.Outcome.next.inj ((exec_of_holds hi h).symm.trans ht)
  rw [bodyOf_eq_conclude hi, hf]
  by_cases h0 : f = 0#3 <;> simp [ReportsOk, ReportsError, extractOf_report, h0]

end

/-! The field operations. -/

/-- Settles O15: DEVTYPE writes its own field and makes no check. -/
theorem devtypeResult : Obligations.DevtypeResult := by
  refine ⟨rfl, failsStructurally_of_legal rfl, fun s cs h => ?_⟩
  have e := exec_of_holds (i := .devtype) rfl h
  obtain ⟨hcmd, hbytes, hin, hhost⟩ := exec_holdsBytes rfl h e
  obtain ⟨hdev, htime, hstate, hsoc, htemp⟩ := exec_fields rfl h e
  exact ⟨_, e, exec_report rfl h e rfl, hcmd, hbytes, hdev, htime, hstate, hsoc, htemp, hin, hhost⟩

/-- The upper four bits of a register that holds a zero-extended timestamp (R35). -/
theorem extractLsb'_setWidth_eq_zero (x : BitVec 32) : (x.setWidth 36).extractLsb' 32 4 = 0 := by
  refine BitVec.eq_of_toNat_eq ?_
  rw [BitVec.extractLsb'_toNat, BitVec.toNat_setWidth_of_le (by decide), Nat.shiftRight_eq_div_pow,
    Nat.div_eq_of_lt x.isLt]
  rfl

/-- Settles O16: TIME writes its own field, the zero-extended timestamp, and makes no check. -/
theorem timeResult : Obligations.TimeResult := by
  refine ⟨rfl, failsStructurally_of_legal rfl, fun s cs h => ?_⟩
  have e := exec_of_holds (i := .time) rfl h
  obtain ⟨hcmd, hbytes, hin, hhost⟩ := exec_holdsBytes rfl h e
  obtain ⟨hdev, htime, hstate, hsoc, htemp⟩ := exec_fields rfl h e
  have hnat : ((timeOf (convertBytes cs)).setWidth 36).toNat = specTime cs := by
    rw [BitVec.toNat_setWidth_of_le (by decide), timeOf_convertBytes]
  exact ⟨_, _, e, exec_report rfl h e rfl, hcmd, hbytes, htime, hnat, extractLsb'_setWidth_eq_zero _, hdev, hstate, hsoc,
    htemp, hin, hhost⟩

/-- Settles O17: STATE writes its own field, whatever its value, and its one check sets STATE_INVALID above 8. -/
theorem stateResult : Obligations.StateResult := by
  refine ⟨rfl, failsStructurally_of_legal rfl, fun s cs h => ?_⟩
  have e := exec_of_holds (i := .state) rfl h
  obtain ⟨hcmd, hbytes, hin, hhost⟩ := exec_holdsBytes rfl h e
  obtain ⟨hdev, htime, hstate, hsoc, htemp⟩ := exec_fields rfl h e
  have hreport := exec_report rfl h e (stateInvalidFlag_convertBytes cs)
  refine ⟨_, e, hstate, ?report, hcmd, hbytes, hdev, htime, hsoc, htemp, hin, hhost⟩
  case report =>
    by_cases hst : 8 < specState cs <;> simpa [hst] using hreport

/-! The names of the state codes. -/

/-- Settles O31: the table and the list agree on each of the sixteen codes. -/
theorem stateNameTable : Obligations.StateNameTable := by
  unfold Obligations.StateNameTable
  decide

end Sys2Proof.Machine
end

section
/-! The statements about the scale mappers (spec/42_scale_mappers.md): the values that SOC_X2 and TEMP_X2 denote, their range
checks, SOC and TEMP. -/

namespace Sys2Proof.Machine

/-! The state-of-charge. -/

theorem two_mul_socValue (raw : Byte) : 2 * socValue raw = raw.toNat := mul_div_cancel₀ _ two_ne_zero

theorem socValue_nonneg (raw : Byte) : 0 ≤ socValue raw := div_nonneg raw.toNat.cast_nonneg zero_le_two

/-- A bound on the state-of-charge is twice that bound on the raw byte (R141). -/
theorem socValue_le_half_iff (raw : Byte) (n : ℕ) : socValue raw ≤ (n : ℚ) / 2 ↔ raw.toNat ≤ n := by
  rw [socValue, div_le_div_iff_of_pos_right two_pos, Nat.cast_le]

theorem socValue_le (raw : Byte) : socValue raw ≤ 255 / 2 := (socValue_le_half_iff raw 255).2 (Nat.le_of_lt_succ raw.isLt)

/-- The upper end of the allowed range (R142). -/
theorem socValue_le_hundred_iff (raw : Byte) : socValue raw ≤ 100 ↔ raw.toNat ≤ 200 := by
  rw [← socValue_le_half_iff]
  norm_num

theorem socValue_lt_of_lt {raw raw' : Byte} (h : raw.toNat < raw'.toNat) : socValue raw < socValue raw' :=
  div_lt_div_of_pos_right (Nat.cast_lt.2 h) two_pos

theorem socRangeFlag_eq_zero_iff (raw : Byte) : socRangeFlag raw = 0 ↔ raw.toNat ≤ 200 := by
  simp [socRangeFlag_toNat]

/-- Settles O29: half the raw byte is never negative, and both the range and its check are a bound of 200 on that byte. -/
theorem socScale : Obligations.SocScale := by
  refine ⟨fun raw => ?_, fun _ _ => socValue_lt_of_lt⟩
  have hrange : 0 ≤ socValue raw ∧ socValue raw ≤ 100 ↔ raw.toNat ≤ 200 := by
    rw [and_iff_right (socValue_nonneg raw), socValue_le_hundred_iff]
  exact ⟨two_mul_socValue raw, socValue_nonneg raw, socValue_le raw, hrange, (socRangeFlag_eq_zero_iff raw).trans hrange.symm⟩

/-! The temperature. -/

theorem two_mul_tempValue (v : BitVec 9) : 2 * tempValue v = v.toInt := mul_div_cancel₀ _ two_ne_zero

/-- The temperature is the state-of-charge scale moved down by 20 (R141, R146). -/
theorem tempValue_tempX2Of_eq_socValue (raw : Byte) : tempValue (tempX2Of raw) = socValue raw - 20 :=
  tempValue_tempX2Of raw

/-- The upper end of the allowed range (R147). -/
theorem tempValue_le_hundred_iff (raw : Byte) : tempValue (tempX2Of raw) ≤ 100 ↔ raw.toNat ≤ 240 := by
  rw [tempValue_tempX2Of_eq_socValue, sub_le_iff_le_add, ← socValue_le_half_iff]
  norm_num

theorem le_tempValue (raw : Byte) : -20 ≤ tempValue (tempX2Of raw) := by
  rw [tempValue_tempX2Of_eq_socValue]
  linarith [socValue_nonneg raw]

theorem tempValue_le (raw : Byte) : tempValue (tempX2Of raw) ≤ 215 / 2 := by
  rw [tempValue_tempX2Of_eq_socValue]
  linarith [socValue_le raw]

theorem tempValue_lt_of_lt {raw raw' : Byte} (h : raw.toNat < raw'.toNat) :
    tempValue (tempX2Of raw) < tempValue (tempX2Of raw') := by
  simpa only [tempValue_tempX2Of_eq_socValue, sub_lt_sub_iff_right] using socValue_lt_of_lt h

theorem tempRangeFlag_eq_zero_iff (raw : Byte) : tempRangeFlag raw = 0 ↔ raw.toNat ≤ 240 := by
  simp [tempRangeFlag_toNat]

/-- Settles O30: half the raw byte less 20 is never below -20, and both the range and its check are a bound of 240 on that byte. -/
theorem tempScale : Obligations.TempScale := by
  refine ⟨two_mul_tempValue, fun raw => ?_, fun _ _ => tempValue_lt_of_lt⟩
  have hrange : -20 ≤ tempValue (tempX2Of raw) ∧ tempValue (tempX2Of raw) ≤ 100 ↔ raw.toNat ≤ 240 := by
    rw [and_iff_right (le_tempValue raw), tempValue_le_hundred_iff]
  exact ⟨tempValue_tempX2Of raw, le_tempValue raw, tempValue_le raw, hrange,
    (tempRangeFlag_eq_zero_iff raw).trans hrange.symm⟩

/-! SOC and TEMP. -/

theorem flagsOf_soc_convertBytes (cs : Chars) :
    flagsOf .soc (convertBytes cs) = if 200 < (specByte cs 5).toNat then 2 else 0 := by
  rw [flagsOf, socOf_convertBytes, socRangeFlag_toNat]

theorem flagsOf_temp_convertBytes (cs : Chars) :
    flagsOf .temp (convertBytes cs) = if 240 < (specByte cs 6).toNat then 4 else 0 := by
  rw [flagsOf, rawTempOf_convertBytes, tempRangeFlag_toNat]

/-- Settles O18: SOC writes its own field, whatever its value, and its one check sets SOC_RANGE above 200. -/
theorem socResult : Obligations.SocResult := by
  refine ⟨rfl, failsStructurally_of_legal rfl, fun s cs h => ?_⟩
  have e := exec_of_holds (i := .soc) rfl h
  obtain ⟨hcmd, hbytes, hin, hhost⟩ := exec_holdsBytes rfl h e
  obtain ⟨hdev, htime, hstate, hsoc, htemp⟩ := exec_fields rfl h e
  have hreport := exec_report rfl h e (flagsOf_soc_convertBytes cs)
  refine ⟨_, e, hsoc, ?report, hcmd, hbytes, hdev, htime, hstate, htemp, hin, hhost⟩
  case report =>
    by_cases hr : 200 < (specByte cs 5).toNat <;> simpa [hr] using hreport

/-- Settles O19: TEMP writes its own field, whatever its value, and its one check sets TEMP_RANGE above 240. -/
theorem tempResult : Obligations.TempResult := by
  refine ⟨rfl, failsStructurally_of_legal rfl, fun s cs h => ?_⟩
  have e := exec_of_holds (i := .temp) rfl h
  obtain ⟨hcmd, hbytes, hin, hhost⟩ := exec_holdsBytes rfl h e
  obtain ⟨hdev, htime, hstate, hsoc, htemp⟩ := exec_fields rfl h e
  have hreport := exec_report rfl h e (flagsOf_temp_convertBytes cs)
  refine ⟨_, _, e, htemp, tempX2Of_toInt _, ?report, hcmd, hbytes, hdev, htime, hstate, hsoc, hin, hhost⟩
  case report =>
    by_cases hr : 240 < (specByte cs 6).toNat <;> simpa [hr] using hreport

end Sys2Proof.Machine
end

section
/-! The statements about RECORD (spec/43_record.md): its report, its fields beside those of the single-field commands, the record
that the host publishes, the detail entries of an error report, and the policy for an empty device string. -/

namespace Sys2Proof.Machine

/-! The flags of a legal command on a well-formed payload string. -/

/-- ERR_FLAGS put together from its three bits (R32). -/
def flagBits (stateInvalid socRange tempRange : Bool) : BitVec 3 :=
  (if stateInvalid then 1 else 0) ||| (if socRange then 2 else 0) ||| (if tempRange then 4 else 0)

@[simp] theorem flagBits_getElem_zero (p q r : Bool) : (flagBits p q r)[0] = p := by
  revert p q r
  decide

@[simp] theorem flagBits_getElem_one (p q r : Bool) : (flagBits p q r)[1] = q := by
  revert p q r
  decide

@[simp] theorem flagBits_getElem_two (p q r : Bool) : (flagBits p q r)[2] = r := by
  revert p q r
  decide

/-- A report has no flag when none of its three bits is set. -/
theorem flags_eq_zero_iff (f : BitVec 3) :
    f = 0 ↔ ¬f.getLsbD 0 = true ∧ ¬f.getLsbD 1 = true ∧ ¬f.getLsbD 2 = true := by
  revert f
  decide

/-- The checks that a legal command makes: STATE_INVALID in STATE, SOC_RANGE in SOC, TEMP_RANGE in TEMP, and all three in RECORD
(R128, R140, R145, R160). -/
theorem flagsOf_convertBytes {i : Instr} (hi : IsLegal i = true) (cs : Chars) :
    flagsOf i (convertBytes cs)
      = flagBits (decide ((encode i = 3 ∨ encode i = 6) ∧ 8 < specState cs))
          (decide ((encode i = 4 ∨ encode i = 6) ∧ 200 < (specByte cs 5).toNat))
          (decide ((encode i = 5 ∨ encode i = 6) ∧ 240 < (specByte cs 6).toNat)) := by
  cases i with
  | illegalOp7 | illegalRsvd => simp [IsLegal] at hi
  | conv | devtype | time => simp [flagsOf, flagBits, encode]
  | state => simp [flagsOf, stateInvalidFlag_convertBytes, flagBits, encode]
  | soc => simp [flagsOf_soc_convertBytes, flagBits, encode]
  | temp => simp [flagsOf_temp_convertBytes, flagBits, encode]
  | record => simp [flagsOf, recordFlags_convertBytes, flagBits, encode]

section
variable {i : Instr} {s t : State} {cs : Chars}

/-- ERR_FLAGS holds the flags of the command's own checks (R32, R162). -/
theorem exec_errFlags (hi : IsLegal i = true) (h : HoldsPayload s cs) (ht : exec i s = .next t) :
    t.errFlags = flagsOf i (convertBytes cs) := by
  obtain rfl := Host.Outcome.next.inj ((exec_of_holds hi h).symm.trans ht)
  rw [bodyOf_eq_conclude hi, State.conclude_errFlags]
  split
  case isTrue h0 => simp [extractOf_report, h0]
  case isFalse => rfl

/-- Each bit of ERR_FLAGS is set exactly when the command makes its check and the field fails it (R32, R162). -/
theorem exec_errFlags_bits (hi : IsLegal i = true) (h : HoldsPayload s cs) (ht : exec i s = .next t) :
    (t.errFlags.getLsbD 0 = true ↔ (encode i = 3 ∨ encode i = 6) ∧ 8 < specState cs)
    ∧ (t.errFlags.getLsbD 1 = true ↔ (encode i = 4 ∨ encode i = 6) ∧ 200 < (specByte cs 5).toNat)
    ∧ (t.errFlags.getLsbD 2 = true ↔ (encode i = 5 ∨ encode i = 6) ∧ 240 < (specByte cs 6).toNat) := by
  simp [exec_errFlags hi h ht, flagsOf_convertBytes hi]

/-- The report in terms of ERR_FLAGS itself (R163). -/
theorem exec_report_errFlags (hi : IsLegal i = true) (h : HoldsPayload s cs) (ht : exec i s = .next t) :
    if t.errFlags = 0 then ReportsOk t else ReportsError t (if t.errFlags.getLsbD 0 = true then 2 else 3) 0 t.errFlags :=
  exec_report hi h ht (exec_errFlags hi h ht).symm

/-- The cause that the report names: none without a flag, DECODE where STATE_INVALID is set, RANGE otherwise; and no sub-cause
(R163, R181, R185). -/
theorem exec_errSub_errCause (hi : IsLegal i = true) (h : HoldsPayload s cs) (ht : exec i s = .next t) :
    t.errSub = 0 ∧ t.errCause = if t.errFlags = 0 then 0 else if t.errFlags.getLsbD 0 = true then 2 else 3 := by
  have hreport := exec_report_errFlags hi h ht
  split at hreport <;> obtain ⟨-, hcause, hsub, -⟩ := hreport
  case isTrue h0 => exact ⟨hsub, hcause.trans (if_pos h0).symm⟩
  case isFalse h0 => exact ⟨hsub, hcause.trans (if_neg h0).symm⟩

end

/-! RECORD. -/

/-- TIME as RECORD leaves it, as the number of R124. -/
theorem toNat_setWidth_timeOf (cs : Chars) : ((timeOf (convertBytes cs)).setWidth 36).toNat = specTime cs := by
  rw [BitVec.toNat_setWidth_of_le (by decide), timeOf_convertBytes]

theorem toNat_ofNat_specState (cs : Chars) : (BitVec.ofNat 4 (specState cs)).toNat = specState cs := by
  rw [BitVec.toNat_ofNat, Nat.mod_eq_of_lt (specState_lt cs)]

/-- The report of RECORD: DECODE if the state code is invalid, else RANGE if a value is out of range, else OK (R160, R163). -/
theorem exec_record_report {s t : State} {cs : Chars} (h : HoldsPayload s cs) (ht : exec .record s = .next t) :
    if 8 < specState cs then ReportsError t 2 0 t.errFlags
    else if 200 < (specByte cs 5).toNat ∨ 240 < (specByte cs 6).toNat then ReportsError t 3 0 t.errFlags
    else ReportsOk t := by
  obtain ⟨hb0, hb1, hb2⟩ := exec_errFlags_bits rfl h ht
  have hreport := exec_report_errFlags rfl h ht
  simp only [flags_eq_zero_iff, hb0, hb1, hb2, encode, or_true, true_and, ← not_or] at hreport
  by_cases hst : 8 < specState cs
  · simpa [hst] using hreport
  · by_cases hr : 200 < (specByte cs 5).toNat ∨ 240 < (specByte cs 6).toNat <;> simpa [hst, hr] using hreport

/-- Settles O20: RECORD writes every field and makes every check, and its report is the one that its flags give. -/
theorem recordResult : Obligations.RecordResult := by
  refine ⟨rfl, failsStructurally_of_legal rfl, fun s cs h => ?_⟩
  obtain ⟨t, e⟩ := exec_next .record s
  obtain ⟨hcmd, hbytes, hin, hhost⟩ := exec_holdsBytes rfl h e
  obtain ⟨hdev, htime, hstate, hsoc, htemp⟩ := exec_fields rfl h e
  obtain ⟨hb0, hb1, hb2⟩ := exec_errFlags_bits rfl h e
  simp only [encode, or_true, true_and] at hb0 hb1 hb2
  exact ⟨t, _, _, e, hdev, htime, toNat_setWidth_timeOf cs, hstate, hsoc, htemp, tempX2Of_toInt _, hb0, hb1, hb2,
    exec_record_report h e, hcmd, hbytes, hin, hhost⟩

/-- Settles O21: a field register holds the same value after its own command and after RECORD, and the flags of RECORD are the
or of those of the three commands with a check. -/
theorem recordAgreesWithSingleFields : Obligations.RecordAgreesWithSingleFields := by
  intro s cs h
  obtain ⟨r, er⟩ := exec_next .record s
  obtain ⟨d, ed⟩ := exec_next .devtype s
  obtain ⟨u, eu⟩ := exec_next .time s
  obtain ⟨c, ec⟩ := exec_next .state s
  obtain ⟨o, eo⟩ := exec_next .soc s
  obtain ⟨p, ep⟩ := exec_next .temp s
  obtain ⟨hdev, htime, hstate, hsoc, htemp⟩ := exec_fields rfl h er
  obtain ⟨hdev', -⟩ := exec_fields rfl h ed
  obtain ⟨-, htime', -⟩ := exec_fields rfl h eu
  obtain ⟨-, -, hstate', -⟩ := exec_fields rfl h ec
  obtain ⟨-, -, -, hsoc', -⟩ := exec_fields rfl h eo
  obtain ⟨-, -, -, -, htemp'⟩ := exec_fields rfl h ep
  obtain ⟨-, hbytes, -⟩ := exec_holdsBytes rfl h er
  obtain ⟨-, hbytes', -⟩ := exec_holdsBytes rfl h ed
  refine ⟨r, d, u, c, o, p, er, ed, eu, ec, eo, ep, hdev.trans hdev'.symm, htime.trans htime'.symm,
    hstate.trans hstate'.symm, hsoc.trans hsoc'.symm, htemp.trans htemp'.symm, ?bytes, ?flags⟩
  case bytes => exact Vector.ext fun k hk => (hbytes ⟨k, hk⟩).trans (hbytes' ⟨k, hk⟩).symm
  case flags =>
    rw [exec_errFlags rfl h er, exec_errFlags rfl h ec, exec_errFlags rfl h eo, exec_errFlags rfl h ep]
    rfl

/-- Settles O22: the cause is decided by STATE_INVALID where a flag is set, and there is none where no flag is. -/
theorem recordCausePriority : Obligations.RecordCausePriority := by
  intro s cs h
  obtain ⟨t, e⟩ := exec_next .record s
  obtain ⟨-, hcause⟩ := exec_errSub_errCause rfl h e
  refine ⟨t, e, fun hb => ?decode, fun hb h0 => ?range, fun h0 => hcause.trans (if_pos h0)⟩
  case decode =>
    have h0 : t.errFlags ≠ 0 := fun h0 => by simp [h0] at hb
    rw [hcause, if_neg h0, if_pos hb]
  case range => rw [hcause, if_neg h0, if_neg (by simpa using hb)]

/-! The published record. -/

/-- Settles O50: with every check passed RECORD reports OK, and the record is made of its field registers. -/
theorem publishedRecord : Obligations.PublishedRecord := by
  refine ⟨fun device s => publishRecord_of_status_ne device, fun device s cs h hst hsoc htemp => ?_⟩
  obtain ⟨t, e⟩ := exec_next .record s
  obtain ⟨-, ht, hc, hs, hx⟩ := exec_fields rfl h e
  have hreport := exec_record_report h e
  rw [if_neg (by omega), if_neg (by omega)] at hreport
  obtain ⟨hok, -⟩ := hreport
  obtain ⟨name, hname⟩ := exists_batteryState ((toNat_ofNat_specState cs).trans_le hst)
  have hscale : ((specByte cs 6).toNat : ℚ) / 2 - 20 = ((specByte cs 6).toNat - 40) / 2 := by ring
  refine ⟨t, e, name, hname, ?_⟩
  rw [publishRecord_of_ok device hok ht hc hname hs hx, toNat_setWidth_timeOf, tempValue_tempX2Of, hscale]
  rfl

/-! The detail entries. -/

theorem valueViolates_stateEntry {s : State} {code : BitVec 4} (hs : s.stateCode = some code) (h : 8 < code.toNat) :
    ValueViolates (stateEntry s) := by
  simpa [ValueViolates, stateEntry, hs] using h

theorem valueViolates_socEntry {s : State} {raw : Byte} (hs : s.socX2 = some raw) (h : 200 < raw.toNat) :
    ValueViolates (socEntry s) := by
  simp only [ValueViolates, socEntry, hs, Option.map_some, socValue_le_hundred_iff]
  omega

theorem valueViolates_tempEntry {s : State} {raw : Byte} (hs : s.tempX2 = some (tempX2Of raw)) (h : 240 < raw.toNat) :
    ValueViolates (tempEntry s) := by
  simp only [ValueViolates, tempEntry, hs, Option.map_some, tempValue_le_hundred_iff]
  omega

/-- Settles O53: only the three flags give entries, and the flag that gives one says that the register fails its check. -/
theorem payloadEntriesNameViolations : Obligations.PayloadEntriesNameViolations := by
  intro i s cs hi h
  obtain ⟨t, e⟩ := exec_next i s
  obtain ⟨hsub, hcause⟩ := exec_errSub_errCause hi h e
  obtain ⟨hb0, hb1, hb2⟩ := exec_errFlags_bits hi h e
  obtain ⟨-, -, hstate, hsoc, htemp⟩ := exec_fields hi h e
  rw [← toNat_ofNat_specState] at hb0
  refine ⟨t, e, ?_⟩
  have hlegal : t.errCause ≠ 5 := by
    rw [hcause]
    split_ifs <;> decide
  rw [errorDetails_of_flags hsub hlegal]
  refine ⟨fun d hd => ?violates, ?count⟩
  case violates =>
    simp only [List.mem_append, mem_entryIf, or_assoc] at hd
    rcases hd with ⟨hb, rfl⟩ | ⟨hb, rfl⟩ | ⟨hb, rfl⟩
    · obtain ⟨hcmd, hgt⟩ := hb0.1 hb
      exact valueViolates_stateEntry (hstate.trans (if_pos hcmd)) hgt
    · obtain ⟨hcmd, hgt⟩ := hb1.1 hb
      exact valueViolates_socEntry (hsoc.trans (if_pos hcmd)) hgt
    · obtain ⟨hcmd, hgt⟩ := hb2.1 hb
      exact valueViolates_tempEntry (htemp.trans (if_pos hcmd)) hgt
  case count =>
    simp only [List.length_append, length_entryIf, Bool.toNat, Bool.cond_eq_ite]

/-- Everything the detail list holds, row by row of R167's table. -/
theorem mem_errorDetails_iff (s : State) (d : ErrorDetail) :
    d ∈ errorDetails s ↔ (s.errSub = 1 ∧ d = missingEntry) ∨ (s.errSub = 2 ∧ d = lengthEntry)
      ∨ (s.errSub = 3 ∧ d = nonHexEntry s) ∨ (s.errFlags.getLsbD 0 = true ∧ d = stateEntry s)
      ∨ (s.errFlags.getLsbD 1 = true ∧ d = socEntry s) ∨ (s.errFlags.getLsbD 2 = true ∧ d = tempEntry s)
      ∨ (s.errCause = 5 ∧ d = commandEntry s) := by
  simp only [errorDetails, List.mem_append, mem_entryIf, or_assoc]
  rfl

/-- The constraint of the length entry with its number written out (R167). -/
theorem lengthEntry_eq : lengthEntry = ⟨some .payload, .absent, .exactLength 16⟩ := rfl

/-- The value of the state-of-charge entry written out (R141, R167). -/
theorem socEntry_eq (s : State) :
    socEntry s = ⟨some .stateOfCharge, .number (s.socX2.map fun v => (v.toNat : ℚ) / 2), .allowedRange 0 100⟩ := rfl

/-- The value of the temperature entry written out (R146, R167). -/
theorem tempEntry_eq (s : State) :
    tempEntry s = ⟨some .temperature, .number (s.tempX2.map fun v => (v.toInt : ℚ) / 2), .allowedRange (-20) 100⟩ := rfl

/-- Settles O52: the entries of R167's rows differ in field or constraint, so each is in the list by its own row alone. -/
theorem errorDetailEntries : Obligations.ErrorDetailEntries := by
  refine ⟨⟨rfl, rfl, rfl, rfl⟩, fun s => ?_⟩
  simp only [mem_errorDetails_iff, missingEntry, lengthEntry_eq, nonHexEntry, stateEntry, socEntry_eq, tempEntry_eq,
    commandEntry]
  refine ⟨?_, ?_, ?_, ?_, ?_, ?_, ?_, fun d hd => ?other⟩
  case other => rcases hd with ⟨-, rfl⟩ | ⟨-, rfl⟩ | ⟨-, rfl⟩ | ⟨-, rfl⟩ | ⟨-, rfl⟩ | ⟨-, rfl⟩ | ⟨-, rfl⟩ <;> simp
  all_goals simp

/-! The policy for an empty device string. -/

/-- Settles O54: only `reject` turns a device away, and only the empty one. -/
theorem emptyDevicePolicy : Obligations.EmptyDevicePolicy := by
  refine ⟨rfl, fun r => ?accept, fun r h => if_pos ⟨rfl, h⟩, fun r h => ?reject⟩
  case accept => rcases r with ⟨device, _ | str⟩ <;> rfl
  case reject =>
    have hkeep (policy : Config.HostDeviceEmptyPolicy) : ¬(policy = .reject ∧ r.device = "") := fun hr => h hr.2
    exact (if_neg (hkeep .reject)).trans (if_neg (hkeep .accept)).symm

end Sys2Proof.Machine
end

section
/-! The statements about the model faults and the errors the host reports (spec/60_exceptions.md): the recorded faults through a host
event, a step and a run, and the kinds of R190. -/

namespace Sys2Proof.Machine

/-! The recorded faults. -/

/-- A command keeps the recorded faults as the front of the list (R189). -/
theorem exec_faults_prefix {i : Instr} {s t : State} (h : exec i s = .next t) : s.faults <+: t.faults := by
  obtain ⟨u, hu, -, -, -, hfaults⟩ := operationFrame i s
  obtain rfl := Host.Outcome.next.inj (hu.symm.trans h)
  exact hfaults

/-- A host event keeps the recorded faults as the front of the list: an access adds at most its own fault, a write of CMD at most
that of its command, and a reset none (R188, R189, R200). -/
theorem hostEvent_faults_prefix {e : HostEvent} {s t : State} (h : hostEvent e s = .next t) : s.faults <+: t.faults := by
  rcases hostEvent_cases e s with ⟨f, hs⟩ | ⟨a, v, hs⟩ | ⟨i, v, hs⟩ | ⟨v, hs⟩ | ⟨v, hs⟩ | ⟨v, -, hs⟩ | ⟨-, hs⟩
  case inr.inr.inr.inr.inr.inl => exact exec_faults_prefix (hs.symm.trans h)
  all_goals
    obtain rfl := Host.Outcome.next.inj (hs.symm.trans h)
    simp

/-- Settles O44: an idle step changes nothing, and every other step is a host event. -/
theorem faultsAreNeverCleared : Obligations.FaultsAreNeverCleared := by
  intro s t h
  rcases step_cases s with ⟨-, hs⟩ | ⟨e, rest, -, hs⟩
  · obtain rfl := Host.Outcome.next.inj (hs.symm.trans h)
    exact List.prefix_rfl
  · exact hostEvent_faults_prefix (s := s.withPending rest) (hs.symm.trans h)

/-- A run keeps the recorded faults as the front of the list (R188, R189). -/
theorem run_faults_prefix {k : Nat} {s t : State} (h : Host.Core.run core k s = .next t) : s.faults <+: t.faults := by
  induction k generalizing s with
  | zero =>
    obtain rfl := Host.Outcome.next.inj h
    exact List.prefix_rfl
  | succ k ih =>
    obtain ⟨u, hu⟩ := step_next s
    rw [run_succ k hu] at h
    exact (faultsAreNeverCleared s u hu).trans (ih h)

/-- Settles O45: the run keeps the fault, and a successful run has none. -/
theorem faultedRunNeverSucceeds : Obligations.FaultedRunNeverSucceeds := by
  rintro k s t hs hrun ⟨-, hnone⟩
  have hprefix := run_faults_prefix hrun
  rw [hnone] at hprefix
  exact hs (List.prefix_nil.1 hprefix)

/-! The kinds of the reported errors. -/

/-- No code has the kind decode_error, the reserved ones included (R190). -/
theorem hostErrorKind_ne_decodeError (code : BitVec 3) : hostErrorKind code ≠ some .decodeError := by
  unfold hostErrorKind
  split <;> simp

/-- Settles O51: the rows of R190's table, and no row is left for decode_error. -/
theorem hostErrorKinds : Obligations.HostErrorKinds :=
  ⟨rfl, rfl, rfl, rfl, rfl, hostErrorKind_ne_decodeError⟩

end Sys2Proof.Machine
end
